-- ==== Sys2Proof/Word.lean ====
section
/-!
DEFINITION. The words the block handles, by the width the spec gives each of them.
Registers whose width is an implementation parameter (00_scope.md rule R7) are natural numbers, cut
to their width by the one operation that writes a register (Machine/Operands.lean, rule R9).
-/

namespace Sys2Proof

/-- One buffer byte, one raw payload lane (20_memory.md rule R62, 10_state.md rule R30). -/
abbrev Byte := BitVec 8

/-- One word of the host register port (10_state.md rule R20) and the command word
(30_encoding.md rule R90). -/
abbrev Word := BitVec 32

/-- A frame identifier, `ID_W = 11` bits (00_scope.md rules R7 and R8). -/
abbrev FrameId := BitVec 11

/-- The 4-bit length field of a frame (10_state.md rule R30, rule R27 rows `len` and `chunk_len`). -/
abbrev FrameLen := BitVec 4

/-- Eight bytes side by side: the raw lanes of a receive slot (10_state.md rule R30) and the chunk
register `chunk[0..7]` (10_state.md rule R27). -/
abbrev Lanes := Vector Byte 8

end Sys2Proof
end

