-- ==== Sys2Proof/Syntax.lean ====
section
/-!
DEFINITION. The commands of the block: one constructor for each row of the command table
(30_encoding.md rule R90). The operands of a command are registers, never fields of its word
(30_encoding.md rule R101), so no constructor carries a field.
-/

namespace Sys2Proof

/-- The two host commands (30_encoding.md rule R90). -/
inductive Instr where
  /-- READ, the reassembler (41_receive.md rule R140). -/
  | read
  /-- WRITE, the segmenter (40_transmit.md rule R120). -/
  | write
deriving DecidableEq, Repr

end Sys2Proof
end

