-- ==== Sys2Proof/Config.lean ====
section
/-!
DEFINITION. What an implementation fixes: the literals the source settles (UNVERIFIED, log
entry 24), the parameters of 00_scope.md rule R7 as one record the machine carries unchanged, and the
free values of the model (constants without a body, so that no proof can lean on what they are).
-/

namespace Sys2Proof.Config

/-- `MAX_FRAME_LEN`, most payload bytes in one frame (rule R7, literal L5). -/
def maxFrameLen : Nat := 8

/-- `BUDGET_SCALE`, from the `timeout` operand to the initial budget (rule R7, literal L6). -/
def budgetScale : Nat := 10

/-- `START_MARKER` (rule R7, literal L1). -/
def startMarker : Byte := 0x01

/-- `END_MARKER` (rule R7, literal L2). -/
def endMarker : Byte := 0x17

/-- `LEN_OFFSET`, where the payload-length field lies in the buffer (rule R7, literal L3). -/
def lenOffset : Nat := 2

/-- `OVERHEAD`, the framing bytes around the payload (rule R7, literal L4). -/
def overhead : Nat := 7

/-- `WRITE_EMPTY_STATUS`: the result of a WRITE of size 0 (rule R7, 92_eei_decisions.md D6). -/
inductive EmptyStatus where
  | empty
  | timeout
deriving DecidableEq, Repr

/-- `SWAP_PARTIAL`: the byte swap of a lane group only partly present (rule R7,
42_datapath.md rules R171 and R172). -/
inductive SwapPartial where
  | fixedLanes
  | presentOnly
deriving DecidableEq, Repr

/-- `TX_FAULT_STATES`: the bus states that downgrade a finished WRITE (rule R7). -/
inductive TxFaultStates where
  | busOffOnly
  | passiveAndBusOff
deriving DecidableEq, Repr

/-- `TEC_FAIL_ON`: which movement of the transmit-error counter fails a WRITE (rule R7). -/
inductive TecFailOn where
  | change
  | increase
deriving DecidableEq, Repr

/-- The implementation parameters of 00_scope.md rule R7. `SLOT_ORDER` is no field: it belongs to
the environment and is any slot, arrival by arrival (10_state.md rule R34 E1). `ID_W` is the type
`FrameId`. -/
structure Params where
  /-- `N_RX`, receive slots scanned. -/
  nRx : Nat
  /-- `TX_SLOT`, the one reserved transmit slot. -/
  txSlot : Nat
  /-- How many transmit slots the peripheral has, so that `TX_SLOT` can be said to name one
  (rule R8). DEDUCED, log entry 2. -/
  txSlots : Nat
  /-- `POLL_STEP`, budget units of one polling wait. -/
  pollStep : Nat
  /-- `REG_BASE`, where the platform places the register port (20_memory.md rule R66). -/
  regBase : Nat
  /-- `ADDR_W`. -/
  addrW : Nat
  /-- `SIZE_W`. -/
  sizeW : Nat
  /-- `TIMEOUT_W`. -/
  timeoutW : Nat
  /-- `TEC_W`. -/
  tecW : Nat
  /-- `WRITE_EMPTY_STATUS`. -/
  writeEmptyStatus : EmptyStatus
  /-- `ADVANCE_ON_COMPLETE`. -/
  advanceOnComplete : Bool
  /-- `SWAP_PARTIAL`. -/
  swapPartial : SwapPartial
  /-- `TX_FAULT_STATES`. -/
  txFaultStates : TxFaultStates
  /-- `TEC_FAIL_ON`. -/
  tecFailOn : TecFailOn
deriving DecidableEq, Repr

/-- The parameters of `State.reset`: the defaults of rule R7 where it gives one; `N_RX`, `TX_SLOT`,
`POLL_STEP` and `REG_BASE`, which it leaves OPEN, at the values log entry 2 names (DESIGN CHOICE,
unsafe for a statement about `State.reset` alone). -/
def defaultParams : Params where
  nRx := 4
  txSlot := 0
  txSlots := 1
  pollStep := 1
  regBase := 0
  addrW := 32
  sizeW := 17
  timeoutW := 16
  tecW := 8
  writeEmptyStatus := .empty
  advanceOnComplete := true
  swapPartial := .fixedLanes
  txFaultStates := .busOffOnly
  tecFailOn := .change

/-- The internal registers of 10_state.md rule R27, as names: which register a free value is
drawn for. -/
inductive InternalReg where
  | count
  | rxBudget
  | produced
  | len
  | txBase
  | txSize
  | txTimeout
  | txBudget
  | txOff
  | chunkLen
  | chunk (j : Nat)
  | errSnap
  | txRet
deriving DecidableEq, Repr

/-- FREE VALUE, log entry 4: what an internal register holds after the `n`-th assertion of `RESET`
("the internal registers of 10_state.md rule R27 keep unspecified values", rule R230). It has no
body. -/
opaque unspecified (r : InternalReg) (n : Nat) : Nat

/-- FREE VALUE, log entry 4: the same for the two signed budget registers. -/
opaque unspecifiedBudget (r : InternalReg) (n : Nat) : Int

end Sys2Proof.Config
end

