-- ==== Sys2Proof/WellFormed.lean ====
section
/-!
DEFINITION. What is well formed: an instruction (it has no operand field, so each is), and a
parameter setting (00_scope.md rule R8), which a machine is refused without.
-/

namespace Sys2Proof

/-- A command has no operand field to check (30_encoding.md rule R101). -/
def Instr.wellFormed : Instr → Bool
  | .read => true
  | .write => true

namespace Config

/-- `N_RX ≥ 1` (00_scope.md rule R8). -/
def Params.slotsOk (p : Params) : Bool := decide (1 ≤ p.nRx)

/-- `POLL_STEP ≥ 1` (00_scope.md rule R8). -/
def Params.pollStepOk (p : Params) : Bool := decide (1 ≤ p.pollStep)

/-- `SIZE_W ≥ 4` (00_scope.md rule R8). -/
def Params.sizeWidthOk (p : Params) : Bool := decide (4 ≤ p.sizeW)

/-- `TX_SLOT` names a transmit slot of the peripheral (00_scope.md rule R8). -/
def Params.txSlotOk (p : Params) : Bool := decide (p.txSlot < p.txSlots)

/-- The constraints of 00_scope.md rule R8 together; `ID_W = 11` holds by type. -/
def Params.ok (p : Params) : Bool :=
  p.slotsOk && p.pollStepOk && p.sizeWidthOk && p.txSlotOk

end Config

end Sys2Proof
end

