-- ==== Sys2Proof/Decode.lean ====
section
/-!
DEFINITION. The command decoder (30_encoding.md rules R90, R91 and R94) and, after it, the encoder.
The command word is decoded whole: 32 bits, one format, no operand field.
-/

namespace Sys2Proof

/-- Why a command word starts nothing. -/
inductive DecodeError where
  /-- Neither READ nor WRITE (30_encoding.md rule R94); the word is what `FAULT_INFO` records. -/
  | illegalCmd (word : Word)
deriving DecidableEq, Repr

/-- What a command word is. -/
inductive Decoded where
  | instr (i : Instr)
  | illegal (e : DecodeError)
deriving DecidableEq, Repr

/-- The match word of READ under the full mask (30_encoding.md rule R90). -/
def readWord : Word := 0x00000001

/-- The match word of WRITE under the full mask (30_encoding.md rule R90). -/
def writeWord : Word := 0x00000002

/-- "The word is decoded whole. Any reserved bit set makes the word illegal." (rule R91). -/
def decode (w : Word) : Decoded :=
  if w = readWord then .instr .read
  else if w = writeWord then .instr .write
  else .illegal (.illegalCmd w)

/-- The command word of a command (30_encoding.md rule R90). -/
def encode : Instr → Word
  | .read => readWord
  | .write => writeWord

/-- The command word whose bits are `w` in the numbering of the command table: bits from `nbits`
on are 0. A register word has no byte order of its own (20_memory.md rule R65). -/
def tableWord (nbits w : Nat) : Word := BitVec.ofNat 32 (w % 2 ^ nbits)

/-- What the decoder reads from a row of the command table. -/
def decodeTableWord (nbits w : Nat) : Option Instr :=
  match decode (tableWord nbits w) with
  | .instr i => some i
  | .illegal _ => none

end Sys2Proof
end

