-- ==== Sys2Proof/Machine/State.lean ====
section
/-!
DEFINITION. The state of the machine, as plain data: every register 10_state.md gives the block,
the peripheral and the buffer memory the block works on, and the turns of the other agents. Also
the reasons a step can stop, and the machine right after reset.

Fields marked MODEL are the model's own, not the spec's (INVENTORY.md, State).
-/

namespace Sys2Proof.Machine

open Sys2Proof.Config

/-- `STATE`, the block's finite-state machine (10_state.md rule R35); codes in Machine/Flags.lean. -/
inductive Fsm where
  | idle
  | rxStart
  | rxClear
  | rxPassTop
  | rxBus
  | rxTest
  | rxFilter
  | rxCopy
  | rxRelease
  | rxEcho
  | rxAdvance
  | rxPassEnd
  | rxFinal
  | txStart
  | txWaitFree
  | txLoad
  | txTrigger
  | txPollErr
  | txPollFree
  | txFinal
  | fault
deriving DecidableEq, Repr

/-- `STATUS.RESULT` (30_encoding.md rule R92). The reserved codes 5 to 7 are never produced. -/
inductive Result where
  | none
  | ok
  | timeout
  | invalidState
  | empty
deriving DecidableEq, Repr

/-- `FAULT_CAUSE` (30_encoding.md rule R93). The reserved codes 9 to 15 are never raised. -/
inductive FaultCause where
  | none
  | illegalCmd
  | busyWrite
  | hostAccess
  | rxSize
  | txSlotType
  | addrRange
  | overrun
  | periphLen
deriving DecidableEq, Repr

/-- `tx_ret`: where a WRITE returns (10_state.md rule R27). -/
inductive TxRet where
  | host
  | rx
deriving DecidableEq, Repr

/-- The bus error state (10_state.md rule R32). -/
inductive Bus where
  | active
  | passive
  | busOff
deriving DecidableEq, Repr

/-- A receive slot of the peripheral (10_state.md rule R30). While `full` is false the other
fields are what the last frame left and no rule reads them (DEDUCED, log entry 19, safe). -/
structure RxSlot where
  full : Bool
  id : FrameId
  len : FrameLen
  lanes : Lanes
deriving DecidableEq, Repr

/-- The transmit slot `TX_SLOT` (10_state.md rule R32): its busy flag and the frame last loaded,
which stays there while it is pending (40_transmit.md rule R130). -/
structure TxSlot where
  busy : Bool
  id : FrameId
  len : FrameLen
  data : List Byte
deriving DecidableEq, Repr

/-- What the peripheral owns and the block reads through its calls (10_state.md rules R30, R32). -/
structure Peripheral where
  /-- receive slots `0..N_RX-1`, in order -/
  slots : List RxSlot
  tx : TxSlot
  /-- the transmit-error counter, `TEC_W` bits -/
  tec : Nat
  bus : Bus
deriving DecidableEq, Repr

/-- The internal datapath registers of 10_state.md rule R27. -/
structure Datapath where
  count : Nat
  rxBudget : Int
  produced : Nat
  len : FrameLen
  txBase : Nat
  txSize : Nat
  txTimeout : Nat
  txBudget : Int
  txOff : Nat
  chunkLen : FrameLen
  chunk : Lanes
  errSnap : Nat
  txRet : TxRet
deriving DecidableEq, Repr

/-- One call of the peripheral interface (10_state.md rule R31), as the block makes it (DEDUCED, log
entry 17). -/
inductive Call where
  | rxFull (i : Nat)
  | rxId (i : Nat)
  | rxLen (i : Nat)
  | rxLane (i j : Nat)
  | rxRelease (i : Nat)
  | txFull
  /-- `masked` is the level of the output `IRQ_MASK` during the call (40_transmit.md rule R126). -/
  | txSend (id : FrameId) (len : FrameLen) (data : List Byte) (masked : Bool)
  | txErrCount
  | busState
  | delay (n : Nat)
deriving DecidableEq, Repr

/-- A step of the environment (10_state.md rule R34, laws E1 to E5). -/
inductive EnvStep where
  /-- E1: a frame arrives in slot `i`; which slot is the OPEN parameter `SLOT_ORDER`. -/
  | arrive (i : Nat) (id : FrameId) (len : FrameLen) (lanes : Lanes)
  /-- E3: the busy transmit slot becomes free. -/
  | txFree
  /-- E4: the transmit-error counter moves. -/
  | tec (v : Nat)
  /-- E5: the bus state moves. -/
  | bus (b : Bus)
  /-- The static input `TX_SLOT_TYPE_OK` is set (10_state.md rule R33, 93 item A5). -/
  | slotType (ok : Bool)
deriving DecidableEq, Repr

/-- A step of the host (10_state.md rule R36). An access names a platform address, its width in
bytes and, for a write, the word. -/
inductive HostStep where
  | regWrite (addr width : Nat) (data : Word)
  | regRead (addr width : Nat)
  | bufWrite (addr : Nat) (v : Byte)
  | bufRead (addr : Nat)
  /-- the peripheral's `reset()`, with the values it leaves (70_reset_and_hazards.md rule R233) -/
  | periphReset (p : Peripheral)
  /-- the peripheral's `start()`, idempotent bring-up (rule R233) -/
  | periphStart
  /-- the peripheral's `stop()`, idempotent tear-down (rule R233) -/
  | periphStop
deriving DecidableEq, Repr

/-- Whose turn the next step is (10_state.md rule R36): any interleaving is a run. -/
inductive Turn where
  | block
  | env (e : EnvStep)
  | host (h : HostStep)
  /-- the platform asserts `RESET` (70_reset_and_hazards.md rule R230) -/
  | reset
deriving DecidableEq, Repr

/-- The buffer memory: (address, byte) pairs in the one canonical form of `Memory.wf`. -/
abbrev Memory := List Host.Cell

/-- What an unlisted address of the buffer memory reads as. The spec gives the buffer memory no
reset contents (10_state.md rule R40): DESIGN CHOICE, log entry 5. -/
def blankByte : Byte := 0x00

/-- The canonical form: addresses strictly rising, and no entry equal to `blankByte`. -/
abbrev Memory.wf (m : Memory) : Prop :=
  m.Pairwise (fun c d => c.1 < d.1) ∧ ∀ c ∈ m, c.2 ≠ blankByte

/-- The state of the machine. -/
structure State where
  /-- the implementation parameters (00_scope.md rule R7); no step changes them -/
  params : Params
  /-- `STATUS.BUSY` (10_state.md rule R22) -/
  busy : Bool
  /-- `STATUS.FAULT` (rule R22) -/
  fault : Bool
  /-- `STATUS.ECHO_ERR` (rule R22) -/
  echoErr : Bool
  /-- `STATUS.RESULT` (rule R22) -/
  result : Result
  /-- `STATUS.LAST_OP`: the last accepted command, if any (rule R22) -/
  lastOp : Option Instr
  /-- `STATUS.STATE` (rule R35) -/
  fsm : Fsm
  /-- `BUF_BASE`, `ADDR_W` bits (rule R23) -/
  bufBase : Nat
  /-- `BUF_SIZE`, `SIZE_W` bits (rule R23) -/
  bufSize : Nat
  /-- `TIMEOUT`, `TIMEOUT_W` bits (rule R23) -/
  timeout : Nat
  /-- `COUNT`, `SIZE_W` bits (rule R25) -/
  countReg : Nat
  /-- `CONFIG`: bit 0 FILTER_EN, bit 1 BCAST_EN, bit 2 ECHO_EN (rule R24) -/
  config : BitVec 3
  /-- `OWN_ID` (rule R24) -/
  ownId : FrameId
  /-- `BCAST_ID` (rule R24) -/
  bcastId : FrameId
  /-- `TX_ID` (rule R24) -/
  txId : FrameId
  /-- `CURSOR`, `0..N_RX` (rule R26) -/
  cursor : Nat
  /-- `FAULT_CAUSE` (rule R28) -/
  faultCause : FaultCause
  /-- `FAULT_INFO` (rule R28) -/
  faultInfo : Word
  /-- the output `IRQ_MASK` (rule R33) -/
  irqMask : Bool
  /-- the input `TX_SLOT_TYPE_OK` (rule R33) -/
  slotTypeOk : Bool
  /-- the internal registers (rule R27) -/
  dp : Datapath
  /-- the peripheral's state (rules R30, R32) -/
  periph : Peripheral
  /-- the buffer memory (20_memory.md rule R60) -/
  mem : Memory
  /-- MODEL: the turns to come, first first -/
  agenda : List Turn
  /-- MODEL: the turns that come again and again once the agenda is over; when it is empty too, the
  block moves -/
  refrain : List Turn
  /-- MODEL: the peripheral calls the block has made, newest first -/
  calls : List Call
  /-- MODEL: the word the register port returned to the host's last read -/
  readData : Word
  /-- MODEL: the byte the host's last buffer read returned -/
  bufData : Byte
  /-- MODEL: how many times free values were drawn (log entry 4) -/
  draws : Nat
deriving DecidableEq, Repr

/-- Why the machine stops. None is a fault of the spec: those the block takes as state
(60_exceptions.md rule R206). Each is an access to something the spec says does not exist, and
`Safety.Consistent` rules each out (DEDUCED, log entry 21). -/
inductive Fault where
  /-- A buffer access of the block at or above `2^ADDR_W` (20_memory.md rules R60, R63).
  Raised by `RX_CLEAR`, `RX_COPY`, `RX_ADVANCE`, `RX_FINAL` and `TX_LOAD`. Safe. -/
  | noSuchAddress (a : Nat)
  /-- A peripheral call on a receive slot the peripheral does not have (10_state.md rule R30).
  Raised by `RX_TEST`, `RX_FILTER`, `RX_COPY` and `RX_RELEASE`. Safe. -/
  | noSuchSlot (i : Nat)
  /-- A lane read beyond lane 7 (10_state.md rule R30). Raised by `RX_COPY`. Safe. -/
  | noSuchLane (j : Nat)
deriving DecidableEq, Repr

/-- Why a step is refused. -/
inductive Refusal where
  /-- An instruction without a meaning yet; raised by `exec` alone. Safe. -/
  | notModelled (mnemonic : String)
  /-- The parameters break 00_scope.md rule R8, or the peripheral has not `N_RX` receive slots.
  Raised by `step`. Safe: "A configuration that violates one of them is refused." -/
  | parameters
  /-- The agenda gives the environment a move its laws forbid (10_state.md rule R34), or a peripheral
  reset that leaves a state they forbid (70_reset_and_hazards.md rule R233). Raised by `hostStep` and
  `envStep`. Safe for a real system that keeps the laws (93 item A1). -/
  | environmentLaw
  /-- The agenda gives the host a move its duties forbid: the buffer or the peripheral while
  `BUSY = 1` (20_memory.md rule R70, 70_reset_and_hazards.md rule R233; 93 items A2, A4).
  Raised by `hostStep`. -/
  | hostDuty
  /-- The host's access is below `REG_BASE`, or outside the buffer memory: it does not reach the
  block or its buffer (20_memory.md rules R60, R66). Raised by `hostStep`. Safe. -/
  | notAddressed
deriving DecidableEq, Repr

/-- What a step of this machine answers. -/
abbrev Outcome := Host.Outcome State Fault Refusal

/-- An empty receive slot. -/
def RxSlot.blank : RxSlot :=
  { full := false, id := 0, len := 0, lanes := Vector.replicate 8 0 }

/-- A free transmit slot that has held no frame. -/
def TxSlot.blank : TxSlot := { busy := false, id := 0, len := 0, data := [] }

/-- The peripheral in `State.reset`: nothing received, nothing pending. Reset does not reach the
peripheral (10_state.md rule R40): DESIGN CHOICE, log entry 6. -/
def Peripheral.quiet (p : Params) : Peripheral :=
  { slots := List.replicate p.nRx RxSlot.blank, tx := TxSlot.blank, tec := 0, bus := .active }

/-- The internal registers in `State.reset`. 10_state.md rule R40 leaves them unspecified:
DESIGN CHOICE, log entry 3. -/
def Datapath.blank : Datapath :=
  { count := 0, rxBudget := 0, produced := 0, len := 0, txBase := 0, txSize := 0, txTimeout := 0,
    txBudget := 0, txOff := 0, chunkLen := 0, chunk := Vector.replicate 8 0, errSnap := 0,
    txRet := .host }

/-- The machine right after reset, for any parameters: 10_state.md rule R40, with the choices of
log entries 3, 5, 6 and 7 where that rule gives no value. -/
def State.resetWith (p : Params) : State :=
  { params := p, busy := false, fault := false, echoErr := false, result := .none, lastOp := none,
    fsm := .idle, bufBase := 0, bufSize := 0, timeout := 0, countReg := 0, config := 0, ownId := 0,
    bcastId := 0, txId := 0, cursor := 0, faultCause := .none, faultInfo := 0, irqMask := false,
    slotTypeOk := true, dp := Datapath.blank, periph := Peripheral.quiet p, mem := [],
    agenda := [], refrain := [], calls := [], readData := 0, bufData := 0, draws := 0 }

/-- The machine right after reset (10_state.md rule R40, 70_reset_and_hazards.md rule R230). -/
def State.reset : State := State.resetWith defaultParams

end Sys2Proof.Machine
end

