-- ==== Sys2Proof/Machine/Operands.lean ====
section
/-!
DEFINITION. Operands: the width a register write cuts to, the operands of a command
(30_encoding.md rule R101), the configuration bits (10_state.md rule R24), and what the host
register port stores and returns (10_state.md rules R20 to R28).
-/

namespace Sys2Proof.Machine

open Sys2Proof.Config

/-- "A register write truncates to the register's stated width." (00_scope.md rule R9; DEDUCED, log
entry 8). -/
def cut (w n : Nat) : Nat := n % 2 ^ w

/-- The width of `CURSOR` and `produced`, `ceil(log2(N_RX + 1))` (10_state.md rules R20 and R27):
the number of bits that writes `N_RX`. -/
def cursorWidth (p : Params) : Nat := Nat.log2 p.nRx + 1

/-- The first address above the buffer memory, `2^ADDR_W` (20_memory.md rules R60 and R63). -/
def spaceEnd (s : State) : Nat := 2 ^ s.params.addrW

/-- The address of `buf[i]` (20_memory.md rule R61). -/
def bufAddr (s : State) (i : Nat) : Nat := s.bufBase + i

/-- The initial budget, `10 × timeout` (30_encoding.md rule R101, 42_datapath.md rule R180). -/
def initialBudget (timeout : Nat) : Int := (budgetScale * timeout : Nat)

/-- `CONFIG.FILTER_EN` (10_state.md rule R24). -/
def filterEn (s : State) : Bool := s.config.getLsbD 0

/-- `CONFIG.BCAST_EN` (10_state.md rule R24). -/
def bcastEn (s : State) : Bool := s.config.getLsbD 1

/-- `CONFIG.ECHO_EN` (10_state.md rule R24). -/
def echoEn (s : State) : Bool := s.config.getLsbD 2

/-- The offset of a platform address from the block's register base, if it is not below it
(10_state.md rule R20, 20_memory.md rule R66). -/
def regOffset (p : Params) (addr : Nat) : Option Nat :=
  if p.regBase ≤ addr then some (addr - p.regBase) else none

/-- The admitted access shape: a 32-bit word at a multiple of 4 (20_memory.md rule R64). -/
def shapeOk (offset width : Nat) : Bool := width == 4 && offset % 4 == 0

/-- What a host write of a read-write register stores, at the offsets of 10_state.md rules R23 and
R24; `none` at every other offset. The low bits that fit are stored, the rest dropped. -/
def storeReg (offset : Nat) (data : Word) (s : State) : Option State :=
  match offset with
  | 0x08 => some { s with bufBase := cut s.params.addrW data.toNat }
  | 0x0C => some { s with bufSize := cut s.params.sizeW data.toNat }
  | 0x10 => some { s with timeout := cut s.params.timeoutW data.toNat }
  | 0x18 => some { s with config := data.setWidth 3 }
  | 0x1C => some { s with ownId := data.setWidth 11 }
  | 0x20 => some { s with bcastId := data.setWidth 11 }
  | 0x24 => some { s with txId := data.setWidth 11 }
  | _ => none

end Sys2Proof.Machine
end

