-- ==== Sys2Proof/Machine/Flags.lean ====
section
/-!
DEFINITION. The codes of results, faults and states, the `STATUS` word built from them
(10_state.md rule R22, 30_encoding.md rules R92, R93 and R95), what a host read returns, and the two
tests a WRITE makes of the peripheral's error state.
-/

namespace Sys2Proof.Machine

open Sys2Proof.Config

/-- The 3-bit code of a result (30_encoding.md rule R92). -/
def Result.code : Result → BitVec 3
  | .none => 0
  | .ok => 1
  | .timeout => 2
  | .invalidState => 3
  | .empty => 4

/-- The 4-bit code of a fault cause (30_encoding.md rule R93). -/
def FaultCause.code : FaultCause → BitVec 4
  | .none => 0
  | .illegalCmd => 1
  | .busyWrite => 2
  | .hostAccess => 3
  | .rxSize => 4
  | .txSlotType => 5
  | .addrRange => 6
  | .overrun => 7
  | .periphLen => 8

/-- The 5-bit code of a state (30_encoding.md rule R95). -/
def Fsm.code : Fsm → BitVec 5
  | .idle => 0x00
  | .rxStart => 0x01
  | .rxClear => 0x02
  | .rxPassTop => 0x03
  | .rxBus => 0x04
  | .rxTest => 0x05
  | .rxFilter => 0x06
  | .rxCopy => 0x07
  | .rxRelease => 0x08
  | .rxEcho => 0x09
  | .rxAdvance => 0x0A
  | .rxPassEnd => 0x0B
  | .rxFinal => 0x0C
  | .txStart => 0x10
  | .txWaitFree => 0x11
  | .txLoad => 0x12
  | .txTrigger => 0x13
  | .txPollErr => 0x14
  | .txPollFree => 0x15
  | .txFinal => 0x16
  | .fault => 0x1F

/-- `STATUS.LAST_OP`: 1 READ, 2 WRITE, 0 if none (10_state.md rule R22). -/
def lastOpCode : Option Instr → BitVec 2
  | none => 0
  | some .read => 1
  | some .write => 2

/-- The `STATUS` word (10_state.md rule R22), its fields from bit 31 down; reserved bits read 0. -/
def statusWord (s : State) : Word :=
  0#11 ++ s.fsm.code ++ 0#6 ++ lastOpCode s.lastOp ++ 0#1 ++ s.result.code ++ 0#1 ++
    BitVec.ofBool s.echoErr ++ BitVec.ofBool s.fault ++ BitVec.ofBool s.busy

/-- What a host read of an offset returns: the register zero-extended, 0 for `CMD` and for a
reserved offset (10_state.md rules R20 to R29, 20_memory.md rule R64). -/
def readReg (offset : Nat) (s : State) : Word :=
  match offset with
  | 0x04 => statusWord s
  | 0x08 => BitVec.ofNat 32 s.bufBase
  | 0x0C => BitVec.ofNat 32 s.bufSize
  | 0x10 => BitVec.ofNat 32 s.timeout
  | 0x14 => BitVec.ofNat 32 s.countReg
  | 0x18 => s.config.setWidth 32
  | 0x1C => s.ownId.setWidth 32
  | 0x20 => s.bcastId.setWidth 32
  | 0x24 => s.txId.setWidth 32
  | 0x28 => BitVec.ofNat 32 s.cursor
  | 0x2C => s.faultCause.code.setWidth 32
  | 0x30 => s.faultInfo
  | _ => 0

/-- `TecFail(e)`: whether a transmit-error count fails the frame (40_transmit.md rule R127). -/
def tecFail (p : Params) (snap e : Nat) : Bool :=
  match p.tecFailOn with
  | .change => e != snap
  | .increase => decide (snap < e)

/-- Whether a bus state lies in `TX_FAULT_STATES` (40_transmit.md rule R129). -/
def txFaultState (p : Params) (b : Bus) : Bool :=
  match p.txFaultStates, b with
  | .busOffOnly, .busOff => true
  | .passiveAndBusOff, .busOff => true
  | .passiveAndBusOff, .passive => true
  | _, _ => false

/-- The result code of a WRITE of size 0 (40_transmit.md rule R121, rule R92). -/
def emptyResult (p : Params) : Result :=
  match p.writeEmptyStatus with
  | .empty => .empty
  | .timeout => .timeout

/-- Whether an echo's result sets `STATUS.ECHO_ERR` (40_transmit.md rule R133). -/
def echoFails : Result → Bool
  | .ok => false
  | .empty => false
  | .none => true
  | .timeout => true
  | .invalidState => true

end Sys2Proof.Machine
end

