-- ==== Sys2Proof/Machine/Ops.lean ====
section
/-!
DEFINITION. The named operations every meaning is written over: buffer memory in its canonical
form, register writes cut to their width, the peripheral calls, the end of a command, the taking
of a fault (60_exceptions.md rule R206) and beside it the one way back from it, `RESET`
(70_reset_and_hazards.md rule R230).
-/

namespace Sys2Proof.Machine

open Sys2Proof.Config

/-! ## Buffer memory -/

/-- `MemRead(a, 1)` on the list of cells (20_memory.md rule R62). -/
def Memory.read : Memory → Nat → Byte
  | [], _ => blankByte
  | (a, b) :: m, x => if a = x then b else Memory.read m x

/-- `MemWrite(a, 1, v)` on the list of cells (20_memory.md rule R62); writing what an unlisted
address reads as removes the entry. -/
def Memory.write : Memory → Nat → Byte → Memory
  | [], x, v => if v = blankByte then [] else [(x, v)]
  | (a, b) :: m, x, v =>
    if x < a then
      if v = blankByte then (a, b) :: m else (x, v) :: (a, b) :: m
    else if x = a then
      if v = blankByte then m else (x, v) :: m
    else (a, b) :: Memory.write m x v

/-- Write one value at `base`, `base + 1`, ..., `base + n - 1`, in this order. -/
def Memory.fill (m : Memory) (base : Nat) (v : Byte) : Nat → Memory
  | 0 => m
  | n + 1 => (Memory.fill m base v n).write (base + n) v

/-- Write `f (n-1)` at `base + n - 1` down to `f 0` at `base`, in this order ("from the highest
index down to 0", 20_memory.md rule R69). -/
def Memory.copyDown (f : Nat → Byte) (m : Memory) (base : Nat) : Nat → Memory
  | 0 => m
  | n + 1 => Memory.copyDown f (m.write (base + n) (f n)) base n

/-- Read `n` bytes upward from `base` into the first `n` places of a chunk, in this order. -/
def Memory.loadInto (m : Memory) (base : Nat) (c : Lanes) : Nat → Lanes
  | 0 => c
  | n + 1 => (Memory.loadInto m base c n).setIfInBounds n (m.read (base + n))

/-- Whether `n` bytes from `lo` lie in the buffer memory (20_memory.md rule R63). -/
def inSpace (s : State) (lo n : Nat) : Bool := n == 0 || decide (lo + n ≤ spaceEnd s)

/-- `MemRead` of one byte by the block; `none` above the buffer memory. -/
def memRead (s : State) (a : Nat) : Option Byte :=
  if a < spaceEnd s then some (s.mem.read a) else none

/-! ## Register writes -/

/-- Write `CURSOR` (10_state.md rule R26). -/
def setCursor (s : State) (v : Nat) : State :=
  { s with cursor := cut (cursorWidth s.params) v }

/-- Move to a state: the micro-step's next (10_state.md rule R35). -/
def goto (s : State) (f : Fsm) : State := { s with fsm := f }

/-- Write the internal registers (10_state.md rule R27). -/
def setDp (s : State) (d : Datapath) : State := { s with dp := d }

/-! ## Peripheral calls (10_state.md rule R31) -/

/-- Record one call of the peripheral interface. -/
def logCall (s : State) (c : Call) : State := { s with calls := c :: s.calls }

/-- Receive slot `i`, if the peripheral has it. -/
def slotAt (s : State) (i : Nat) : Option RxSlot := s.periph.slots[i]?

/-- `rxRelease(i)`: `full(i) <- false`. -/
def rxRelease (s : State) (i : Nat) : State :=
  logCall
    { s with periph :=
        { s.periph with slots := s.periph.slots.modify i (fun sl => { sl with full := false }) } }
    (.rxRelease i)

/-- `txSend(id, len, data)`: the transmit slot is loaded and its busy flag set. -/
def txSend (s : State) (id : FrameId) (len : FrameLen) (data : List Byte) : State :=
  logCall
    { s with periph := { s.periph with tx := { busy := true, id := id, len := len, data := data } } }
    (.txSend id len data s.irqMask)

/-- `Delay(n)`: an event without an effect on the state of the block (42_datapath.md rule R181). -/
def delay (s : State) (n : Nat) : State := logCall s (.delay n)

/-! ## The end of a command -/

/-- `finish(result, count)` (10_state.md rule R37). -/
def finish (s : State) (r : Result) (count : Nat) : State :=
  { s with result := r, countReg := cut s.params.sizeW count, busy := false, fsm := .idle }

/-! ## Taking a fault, and the way back -/

/-- `raise Fault(cause, info)` (60_exceptions.md rule R206): the first fault's cause and value are
kept, and the block stops in the state `FAULT`. -/
def raiseFault (s : State) (cause : FaultCause) (info : Nat) : State :=
  { s with
    faultCause := if s.fault then s.faultCause else cause
    faultInfo := if s.fault then s.faultInfo else BitVec.ofNat 32 info
    fault := true
    busy := false
    irqMask := false
    fsm := .fault }

/-- A free budget value within the range of the budget registers (10_state.md rule R27). -/
def fitBudget (p : Params) (v : Int) : Int :=
  max (-(p.pollStep : Int)) (min v (initialBudget (2 ^ p.timeoutW - 1)))

/-- The internal registers after the `n`-th `RESET`: free values, each within its width
(70_reset_and_hazards.md rule R230; log entry 4). -/
def unspecifiedDatapath (p : Params) (n : Nat) : Datapath :=
  { count := cut p.sizeW (unspecified .count n)
    rxBudget := fitBudget p (unspecifiedBudget .rxBudget n)
    produced := cut (cursorWidth p) (unspecified .produced n)
    len := BitVec.ofNat 4 (unspecified .len n)
    txBase := cut p.addrW (unspecified .txBase n)
    txSize := cut p.sizeW (unspecified .txSize n)
    txTimeout := cut p.timeoutW (unspecified .txTimeout n)
    txBudget := fitBudget p (unspecifiedBudget .txBudget n)
    txOff := cut p.sizeW (unspecified .txOff n)
    chunkLen := BitVec.ofNat 4 (unspecified .chunkLen n)
    chunk :=
      #v[BitVec.ofNat 8 (unspecified (.chunk 0) n), BitVec.ofNat 8 (unspecified (.chunk 1) n),
        BitVec.ofNat 8 (unspecified (.chunk 2) n), BitVec.ofNat 8 (unspecified (.chunk 3) n),
        BitVec.ofNat 8 (unspecified (.chunk 4) n), BitVec.ofNat 8 (unspecified (.chunk 5) n),
        BitVec.ofNat 8 (unspecified (.chunk 6) n), BitVec.ofNat 8 (unspecified (.chunk 7) n)]
    errSnap := cut p.tecW (unspecified .errSnap n)
    txRet := if unspecified .txRet n % 2 = 0 then .host else .rx }

/-- The platform asserts `RESET` (70_reset_and_hazards.md rule R230): every host-visible register
takes its value of 10_state.md rule R40, a command in progress is abandoned without a call, the
internal registers are unspecified, and neither the peripheral nor the buffer memory is reached.
It is the only way out of `FAULT` (60_exceptions.md rule R207). One turn, whatever its duration
(DEDUCED, log entry 23). -/
def blockReset (s : State) : State :=
  { s with
    busy := false, fault := false, echoErr := false, result := .none, lastOp := none
    fsm := .idle, bufBase := 0, bufSize := 0, timeout := 0, countReg := 0, config := 0
    ownId := 0, bcastId := 0, txId := 0, cursor := 0, faultCause := .none, faultInfo := 0
    irqMask := false, dp := unspecifiedDatapath s.params s.draws, draws := s.draws + 1 }

end Sys2Proof.Machine
end

