-- ==== Sys2Proof/Machine/Datapath.lean ====
section
/-!
DEFINITION. The datapath units of 42_datapath.md: the byte-swap correction, the packet-boundary
detector, the address filter, the chunker and the budget countdown. Each is total; what it gives in a
state that no run reaches is log entry 20 (DESIGN CHOICE, safe).
-/

namespace Sys2Proof.Machine

open Sys2Proof.Config

/-- The lane map `swap` (42_datapath.md rule R170). -/
def swap (k : Nat) : Nat := 4 * (k / 4) + (3 - k % 4)

/-- The lane that holds payload index `k` of a frame of length `len`: rule R171 or rule R172, as
`SWAP_PARTIAL` selects. -/
def laneIndex (p : Params) (len k : Nat) : Nat :=
  match p.swapPartial with
  | .fixedLanes => swap k
  | .presentOnly => 4 * (k / 4) + (min 4 (len - 4 * (k / 4)) - 1 - k % 4)

/-- The corrected payload byte `k` of a frame of length `len` (rules R171 and R172). -/
def payloadByte (p : Params) (lanes : Lanes) (len k : Nat) : Byte :=
  lanes[laneIndex p len k]?.getD 0

/-- The payload length `L` from its two bytes, little-endian (42_datapath.md rule R173). -/
def packetLen (lo hi : Byte) : Nat := lo.toNat + 256 * hi.toNat

/-- The three tests of `Complete(count)` on the four bytes it reads (42_datapath.md rule R174): the
length-derived total first, then the two markers. `none` where a byte it tests has no address. -/
def completeFrom (lo hi first last : Option Byte) (count : Nat) : Option Bool :=
  match lo, hi with
  | some lo, some hi =>
    if count ≠ overhead + packetLen lo hi then some false
    else
      match first, last with
      | some first, some last => some (first == startMarker && last == endMarker)
      | _, _ => none
  | _, _ => none

/-- `Complete(count)` (42_datapath.md rule R174): every byte read through `MemRead`, at every call. -/
def complete (s : State) (count : Nat) : Option Bool :=
  completeFrom (memRead s (bufAddr s lenOffset)) (memRead s (bufAddr s (lenOffset + 1)))
    (memRead s (bufAddr s 0)) (memRead s (bufAddr s (count - 1))) count

/-- `Accept(id)` (42_datapath.md rule R175). -/
def accept (s : State) (id : FrameId) : Bool :=
  !filterEn s || id == s.ownId || (bcastEn s && id == s.bcastId)

/-- `chunk_len(size, off)` (42_datapath.md rule R176). -/
def chunkLength (size off : Nat) : Nat := min maxFrameLen (size - off)

/-- A budget after one polling wait, `B - POLL_STEP` (42_datapath.md rule R180). -/
def spend (p : Params) (b : Int) : Int := b - p.pollStep

end Sys2Proof.Machine
end

