-- ==== Sys2Proof/Machine/Transmit.lean ====
section
/-!
DEFINITION. The Transmitter: the micro-steps of WRITE (40_transmit.md rules R121 to R129) and the
return of a WRITE to its caller (rule R133). A host WRITE and the echo of a READ run the same
micro-steps.
-/

namespace Sys2Proof.Machine

open Sys2Proof.Config

/-- `tx_return(result, n)` (40_transmit.md rule R133). -/
def txReturn (s : State) (r : Result) (n : Nat) : State :=
  match s.dp.txRet with
  | .host => finish s r n
  | .rx => { s with echoErr := s.echoErr || echoFails r, fsm := .rxAdvance }

/-- One polling wait of a WRITE: `Delay(POLL_STEP)` unless its timeout is 0, and the budget falls
(40_transmit.md rules R124, R128, R132). -/
def txWait (s : State) : State :=
  let t := if s.dp.txTimeout = 0 then s else delay s s.params.pollStep
  setDp t { t.dp with txBudget := spend s.params s.dp.txBudget }

/-- `TX_START` (40_transmit.md rule R121). -/
def txStart (s : State) : Outcome :=
  if !s.slotTypeOk then .next (raiseFault s .txSlotType 0)
  else if s.dp.txSize = 0 then .next (txReturn s (emptyResult s.params) 0)
  else if spaceEnd s < s.dp.txBase + s.dp.txSize then
    .next (raiseFault s .addrRange s.dp.txBase)
  else
    .next (goto
      (setDp s { s.dp with txBudget := initialBudget s.dp.txTimeout, txOff := 0 }) .txWaitFree)

/-- `TX_WAIT_FREE` (40_transmit.md rule R124). -/
def txWaitFree (s : State) : Outcome :=
  if s.dp.txBudget < 0 then .next (txReturn s .timeout s.dp.txOff)
  else
    let t := logCall s .txFull
    if !t.periph.tx.busy then .next (goto t .txLoad)
    else .next (txWait t)

/-- `TX_LOAD` (40_transmit.md rule R125): the chunk is read and the error counter recorded. -/
def txLoad (s : State) : Outcome :=
  let n := chunkLength s.dp.txSize s.dp.txOff
  let base := s.dp.txBase + s.dp.txOff
  if !inSpace s base n then .fault (.noSuchAddress base)
  else
    let t := setDp s
      { s.dp with
        chunkLen := BitVec.ofNat 4 n
        chunk := Memory.loadInto s.mem base s.dp.chunk n
        errSnap := s.periph.tec }
    .next (goto (logCall t .txErrCount) .txTrigger)

/-- The data `TX_TRIGGER` sends: `chunk[0..chunk_len-1]` in payload order (30_encoding.md
rule R98). -/
def chunkData (s : State) : List Byte := s.dp.chunk.toList.take s.dp.chunkLen.toNat

/-- `TX_TRIGGER` (40_transmit.md rule R126): `IRQ_MASK` is asserted around the one call. -/
def txTrigger (s : State) : Outcome :=
  let armed := { s with irqMask := true }
  let sent := txSend armed s.txId s.dp.chunkLen (chunkData s)
  .next (goto { sent with irqMask := false } .txPollErr)

/-- `TX_POLL_ERR` (40_transmit.md rule R127). -/
def txPollErr (s : State) : Outcome :=
  if s.dp.txBudget < 0 then .next (txReturn s .timeout s.dp.txOff)
  else
    let t := logCall s .txErrCount
    if tecFail s.params s.dp.errSnap s.periph.tec then .next (txReturn t .timeout s.dp.txOff)
    else .next (goto t .txPollFree)

/-- `TX_POLL_FREE` (40_transmit.md rule R128). -/
def txPollFree (s : State) : Outcome :=
  let t := logCall s .txFull
  if !t.periph.tx.busy then
    let off := cut s.params.sizeW (s.dp.txOff + s.dp.chunkLen.toNat)
    .next (goto (setDp t { t.dp with txOff := off })
      (if off = s.dp.txSize then .txFinal else .txLoad))
  else .next (goto (txWait t) .txPollErr)

/-- `TX_FINAL` (40_transmit.md rule R129). -/
def txFinal (s : State) : Outcome :=
  let t := logCall s .busState
  if txFaultState s.params s.periph.bus then .next (txReturn t .invalidState s.dp.txSize)
  else .next (txReturn t .ok s.dp.txSize)

end Sys2Proof.Machine
end

