-- ==== Sys2Proof/Machine/Receive.lean ====
section
/-!
DEFINITION. The Receiver: the micro-steps of READ (41_receive.md rules R141 to R153). The echo
(rule R150) goes on in Machine/Transmit.lean and comes back at `RX_ADVANCE`.
-/

namespace Sys2Proof.Machine

open Sys2Proof.Config

/-- `RX_START` (41_receive.md rule R141). -/
def rxStart (s : State) : Outcome :=
  if s.bufSize = 0 then .next (finish s .ok 0)
  else if s.bufSize < maxFrameLen then .next (raiseFault s .rxSize s.bufSize)
  else if spaceEnd s < s.bufBase + s.bufSize then .next (raiseFault s .addrRange s.bufBase)
  else
    .next (goto
      (setDp s { s.dp with count := 0, produced := 0, rxBudget := initialBudget s.timeout })
      .rxClear)

/-- `RX_CLEAR` (41_receive.md rule R142). -/
def rxClear (s : State) : Outcome :=
  if !inSpace s s.bufBase s.bufSize then .fault (.noSuchAddress s.bufBase)
  else .next (goto { s with mem := Memory.fill s.mem s.bufBase 0x00 s.bufSize } .rxPassTop)

/-- `RX_PASS_TOP` (41_receive.md rule R144). -/
def rxPassTop (s : State) : Outcome :=
  if s.dp.rxBudget < 0 then .next (goto s .rxFinal)
  else if s.params.nRx ≤ s.cursor then
    .next (goto (setDp (setCursor s 0) { s.dp with produced := 0 }) .rxBus)
  else .next (goto s .rxBus)

/-- `RX_BUS` (41_receive.md rule R145). -/
def rxBus (s : State) : Outcome :=
  if s.params.nRx ≤ s.cursor then .next (goto s .rxPassEnd)
  else
    let t := logCall s .busState
    if s.periph.bus = .busOff then .next (finish t .invalidState s.dp.count)
    else .next (goto t .rxTest)

/-- `RX_TEST` (41_receive.md rule R146). -/
def rxTest (s : State) : Outcome :=
  match slotAt s s.cursor with
  | none => .fault (.noSuchSlot s.cursor)
  | some slot =>
    let t := logCall s (.rxFull s.cursor)
    if slot.full then .next (goto t .rxFilter)
    else .next (goto (setCursor t (s.cursor + 1)) .rxBus)

/-- `RX_FILTER` (41_receive.md rule R147). The `produced` increment comes before either fault
(60_exceptions.md rule R206). -/
def rxFilter (s : State) : Outcome :=
  match slotAt s s.cursor with
  | none => .fault (.noSuchSlot s.cursor)
  | some slot =>
    let t := logCall s (.rxId s.cursor)
    if !accept s slot.id then
      .next (goto (setCursor (rxRelease t s.cursor) (s.cursor + 1)) .rxBus)
    else
      let produced := cut (cursorWidth s.params) (s.dp.produced + 1)
      let u := setDp (logCall t (.rxLen s.cursor))
        { s.dp with produced := produced, len := slot.len }
      if maxFrameLen < slot.len.toNat then
        .next (raiseFault u .periphLen (s.cursor * 16 + slot.len.toNat))
      else if s.bufSize < s.dp.count + slot.len.toNat then
        .next (raiseFault u .overrun (s.dp.count * 16 + slot.len.toNat))
      else .next (goto u .rxCopy)

/-- The lane reads of one frame, newest first: they run from payload index `len - 1` down to 0. -/
def laneCalls (p : Params) (i len : Nat) : List Call :=
  (List.range len).map (fun k => .rxLane i (laneIndex p len k))

/-- `RX_COPY` (41_receive.md rule R148). -/
def rxCopy (s : State) : Outcome :=
  match slotAt s s.cursor with
  | none => .fault (.noSuchSlot s.cursor)
  | some slot =>
    let n := s.dp.len.toNat
    let base := bufAddr s s.dp.count
    if maxFrameLen < n then .fault (.noSuchLane n)
    else if !inSpace s base n then .fault (.noSuchAddress base)
    else
      .next (goto
        { s with
          mem := Memory.copyDown (payloadByte s.params slot.lanes n) s.mem base n
          calls := laneCalls s.params s.cursor n ++ s.calls }
        .rxRelease)

/-- `RX_RELEASE` (41_receive.md rule R149). -/
def rxReleaseStep (s : State) : Outcome :=
  match slotAt s s.cursor with
  | none => .fault (.noSuchSlot s.cursor)
  | some _ => .next (goto (rxRelease s s.cursor) (if echoEn s then .rxEcho else .rxAdvance))

/-- `RX_ECHO` (41_receive.md rule R150): the nested WRITE of the bytes just copied, timeout 0. -/
def rxEcho (s : State) : Outcome :=
  .next (goto
    (setDp s
      { s.dp with
        txBase := cut s.params.addrW (bufAddr s s.dp.count)
        txSize := cut s.params.sizeW s.dp.len.toNat
        txTimeout := 0
        txRet := .rx })
    .txStart)

/-- `RX_ADVANCE` (41_receive.md rule R151). -/
def rxAdvance (s : State) : Outcome :=
  let count := cut s.params.sizeW (s.dp.count + s.dp.len.toNat)
  let t := setDp s { s.dp with count := count }
  match complete s count with
  | none => .fault (.noSuchAddress (bufAddr s count))
  | some true =>
    .next (finish (if s.params.advanceOnComplete then setCursor t (s.cursor + 1) else t) .ok count)
  | some false => .next (goto (setCursor t (s.cursor + 1)) .rxBus)

/-- `RX_PASS_END` (41_receive.md rule R152). -/
def rxPassEnd (s : State) : Outcome :=
  if s.dp.produced = 0 then
    .next (goto
      (setDp (delay s s.params.pollStep) { s.dp with rxBudget := spend s.params s.dp.rxBudget })
      .rxPassTop)
  else .next (goto s .rxPassTop)

/-- `RX_FINAL` (41_receive.md rule R153). -/
def rxFinal (s : State) : Outcome :=
  match complete s s.dp.count with
  | none => .fault (.noSuchAddress (bufAddr s s.dp.count))
  | some true => .next (finish s .ok s.dp.count)
  | some false => .next (finish s .timeout s.dp.count)

end Sys2Proof.Machine
end

