-- ==== Sys2Proof/Machine/Commands.lean ====
section
/-!
DEFINITION. The two commands. A command is the whole of its rule, R140 or R120: the `CMD` write
that starts it (30_encoding.md rule R91) while the block is idle, and after that, as long as it is
the command running, the micro-step its state names (10_state.md rule R35). `execRead` and
`execWrite` are one atomic step of it (DESIGN CHOICE, log entry 14, safe).
-/

namespace Sys2Proof.Machine

open Sys2Proof.Config

/-- The host command whose micro-step the state names (10_state.md rule R35). A `TX_*` state
belongs to the READ that echoes when `tx_ret` is `RX` (rule R27), else to a host WRITE. -/
def running (s : State) : Option Instr :=
  match s.fsm with
  | .idle | .fault => none
  | .rxStart | .rxClear | .rxPassTop | .rxBus | .rxTest | .rxFilter | .rxCopy | .rxRelease
  | .rxEcho | .rxAdvance | .rxPassEnd | .rxFinal => some .read
  | .txStart | .txWaitFree | .txLoad | .txTrigger | .txPollErr | .txPollFree | .txFinal =>
    match s.dp.txRet with
    | .host => some .write
    | .rx => some .read

/-- The one micro-step of each state (10_state.md rule R35); `IDLE` and `FAULT` have none. -/
def microStep (s : State) : Outcome :=
  match s.fsm with
  | .idle => .next s
  | .rxStart => rxStart s
  | .rxClear => rxClear s
  | .rxPassTop => rxPassTop s
  | .rxBus => rxBus s
  | .rxTest => rxTest s
  | .rxFilter => rxFilter s
  | .rxCopy => rxCopy s
  | .rxRelease => rxReleaseStep s
  | .rxEcho => rxEcho s
  | .rxAdvance => rxAdvance s
  | .rxPassEnd => rxPassEnd s
  | .rxFinal => rxFinal s
  | .txStart => txStart s
  | .txWaitFree => txWaitFree s
  | .txLoad => txLoad s
  | .txTrigger => txTrigger s
  | .txPollErr => txPollErr s
  | .txPollFree => txPollFree s
  | .txFinal => txFinal s
  | .fault => .next s

/-- What an accepted `CMD` write does to `STATUS` (30_encoding.md rule R91). -/
def accepted (s : State) (i : Instr) : State :=
  { s with busy := true, result := .none, echoErr := false, lastOp := some i }

/-- The start of READ (30_encoding.md rule R91). -/
def startRead (s : State) : State := goto (accepted s .read) .rxStart

/-- The start of WRITE (30_encoding.md rule R91). -/
def startWrite (s : State) : State :=
  goto
    (setDp (accepted s .write)
      { s.dp with
        txBase := s.bufBase, txSize := s.bufSize, txTimeout := s.timeout, txRet := .host })
    .txStart

/-- A command issued to a block that is not running it (10_state.md rule R29): no effect once
faulted, a re-entrant call while another command runs, else its start. -/
def issue (s : State) (start : State → State) : State :=
  if s.fault then s
  else if s.busy then raiseFault s .busyWrite 0
  else start s

/-- READ (41_receive.md rule R140). -/
def execRead (s : State) : Outcome :=
  match running s with
  | some .read => microStep s
  | some .write => .next (issue s startRead)
  | none => .next (issue s startRead)

/-- WRITE (40_transmit.md rule R120). -/
def execWrite (s : State) : Outcome :=
  match running s with
  | some .write => microStep s
  | some .read => .next (issue s startWrite)
  | none => .next (issue s startWrite)

end Sys2Proof.Machine
end

