-- ==== Sys2Proof/Machine/HostPort.lean ====
section
/-!
DEFINITION. The host's steps (10_state.md rule R36): register accesses (rule R29, 20_memory.md
rule R64), buffer accesses (20_memory.md rule R70) and the peripheral's lifecycle
(70_reset_and_hazards.md rule R233).
-/

namespace Sys2Proof.Machine

open Sys2Proof.Config

/-- A word the host writes to `CMD` while the block is idle (30_encoding.md rules R91 and R94). -/
def writeCmd (s : State) (w : Word) : Outcome :=
  match decode w with
  | .instr i => exec i s
  | .illegal (.illegalCmd word) => .next (raiseFault s .illegalCmd word.toNat)

/-- A host register write at an offset: shape (20_memory.md rule R64), then rule R29's order
(60_exceptions.md rule R209). -/
def hostWrite (s : State) (offset width : Nat) (data : Word) : Outcome :=
  if !shapeOk offset width then .next (raiseFault s .hostAccess offset)
  else if s.fault then .next s
  else if s.busy then .next (raiseFault s .busyWrite offset)
  else if offset = 0 then writeCmd s data
  else
    match storeReg offset data s with
    | some t => .next t
    | none => .next (raiseFault s .hostAccess offset)

/-- A host register read at an offset (20_memory.md rule R64): it faults on its shape alone,
and a faulting read returns no word (DEDUCED, log entry 15). -/
def hostRead (s : State) (offset width : Nat) : Outcome :=
  if !shapeOk offset width then .next (raiseFault s .hostAccess offset)
  else .next { s with readData := readReg offset s }

/-- One step of the host. The duties it keeps, what its lifecycle calls leave, and which addresses
reach the block: DEDUCED, log entries 10, 12, 13 and 16. That the host keeps off the whole buffer
memory while `BUSY = 1`, not off `buf[0..BUF_SIZE-1]` alone: DESIGN CHOICE, log entry 25, unsafe.
A peripheral reset leaves `BUS_OFF` released (93_implementation_defined.md item F9); law E5 lets the
environment's next move take the bus there again. -/
def hostStep (s : State) : HostStep → Outcome
  | .regWrite addr width data =>
    match regOffset s.params addr with
    | some offset => hostWrite s offset width data
    | none => .refused .notAddressed
  | .regRead addr width =>
    match regOffset s.params addr with
    | some offset => hostRead s offset width
    | none => .refused .notAddressed
  | .bufWrite addr v =>
    if s.busy then .refused .hostDuty
    else if addr < spaceEnd s then .next { s with mem := s.mem.write addr v }
    else .refused .notAddressed
  | .bufRead addr =>
    if s.busy then .refused .hostDuty
    else if addr < spaceEnd s then .next { s with bufData := s.mem.read addr }
    else .refused .notAddressed
  | .periphReset p =>
    if s.busy then .refused .hostDuty
    else if p.slots.length = s.params.nRx ∧ p.tec < 2 ^ s.params.tecW ∧ p.bus ≠ .busOff then
      .next { s with periph := p }
    else .refused .environmentLaw
  | .periphStart => if s.busy then .refused .hostDuty else .next s
  | .periphStop => if s.busy then .refused .hostDuty else .next s

end Sys2Proof.Machine
end

