-- ==== Sys2Proof/Machine/Environment.lean ====
section
/-!
DEFINITION. The environment's steps, as far as its laws E1 to E5 allow them (10_state.md rule R34),
and the lane law E6, which only the round trip uses.
-/

namespace Sys2Proof.Machine

open Sys2Proof.Config

/-- Whether a WRITE is running, by the host or as an echo: `TX_SLOT_TYPE_OK` is static then
(93_implementation_defined.md item A5). -/
def writeRuns (s : State) : Bool :=
  match s.fsm with
  | .txStart | .txWaitFree | .txLoad | .txTrigger | .txPollErr | .txPollFree | .txFinal => true
  | .idle | .rxStart | .rxClear | .rxPassTop | .rxBus | .rxTest | .rxFilter | .rxCopy | .rxRelease
  | .rxEcho | .rxAdvance | .rxPassEnd | .rxFinal | .fault => false

/-- One step of the environment; a move its laws forbid is refused (10_state.md rule R34). DEDUCED,
log entries 9 and 11. -/
def envStep (s : State) : EnvStep → Outcome
  | .arrive i id len lanes =>
    match slotAt s i with
    | none => .refused .environmentLaw
    | some slot =>
      if slot.full then .refused .environmentLaw
      else
        let arrived := { full := true, id := id, len := len, lanes := lanes }
        .next { s with periph := { s.periph with slots := s.periph.slots.set i arrived } }
  | .txFree =>
    if s.periph.tx.busy then
      .next { s with periph := { s.periph with tx := { s.periph.tx with busy := false } } }
    else .refused .environmentLaw
  | .tec v =>
    if v < 2 ^ s.params.tecW then .next { s with periph := { s.periph with tec := v } }
    else .refused .environmentLaw
  | .bus b =>
    if s.periph.bus = .busOff ∧ b ≠ .busOff then .refused .environmentLaw
    else .next { s with periph := { s.periph with bus := b } }
  | .slotType ok =>
    if writeRuns s then .refused .environmentLaw else .next { s with slotTypeOk := ok }

/-- Law E6: the lanes of a frame whose wire payload is `w` (10_state.md rule R34). -/
abbrev laneLaw (lanes : Lanes) (w : List Byte) : Prop :=
  w.length ≤ maxFrameLen ∧ ∀ k < w.length, lanes[swap k]? = w[k]?

end Sys2Proof.Machine
end

