-- ==== Sys2Proof/Machine/Agenda.lean ====
section
/-!
DEFINITION. Whose turn it is (10_state.md rule R36). The agenda names the turns to come, and any
list is one: a claim about every state is a claim about every interleaving. Once the agenda is over,
the refrain comes again and again, so that an environment can keep the block running without end
(93_implementation_defined.md item A6). Where both are empty the environment is quiet: the block
moves (DESIGN CHOICE, log entry 1, safe).
-/

namespace Sys2Proof.Machine

open Sys2Proof.Config

/-- The block's turn: one atomic step of the command that runs; in `IDLE` and `FAULT` the block
has no step and waits (10_state.md rule R35). -/
def blockTurn (s : State) : Outcome :=
  match running s with
  | some i => exec i s
  | none => .next s

/-- One turn of one agent. -/
def takeTurn (s : State) : Turn → Outcome
  | .block => blockTurn s
  | .env e => envStep s e
  | .host h => hostStep s h
  | .reset => .next (blockReset s)

/-- The turn the next step takes: the agenda's first, else the refrain's first, else the block's. -/
def nextTurn (s : State) : Turn :=
  match s.agenda with
  | u :: _ => u
  | [] =>
    match s.refrain with
    | u :: _ => u
    | [] => .block

/-- The turns that come after the next one, up to the refrain's start. -/
def laterTurns (s : State) : List Turn :=
  match s.agenda with
  | _ :: rest => rest
  | [] => s.refrain.tail

/-- The state with the next turn taken off its agenda. -/
def popTurn (s : State) : State := { s with agenda := laterTurns s }

/-- The parameters are ones a machine may have (00_scope.md rule R8), and the peripheral has the
`N_RX` receive slots of 10_state.md rule R30. -/
def fits (s : State) : Bool := s.params.ok && s.periph.slots.length == s.params.nRx

/-- The host's aligned 32-bit write of a word to `CMD` (30_encoding.md rule R90): the place the
block takes its next command from. -/
def cmdWrite (p : Params) (w : Word) : Turn := .host (.regWrite p.regBase 4 w)

/-- One step of the system. -/
def systemStep (s : State) : Outcome :=
  if !fits s then .refused .parameters else takeTurn (popTurn s) (nextTurn s)

end Sys2Proof.Machine
end

