-- ==== Sys2Proof/Machine/Step.lean ====
section
/-!
DEFINITION. The step of the machine, and how a command word is placed where the next step takes it.
-/

namespace Sys2Proof.Machine

/-- One step (10_state.md rule R36); its three outcomes are Host/Core.lean's. -/
def step : State → Host.Outcome State Fault Refusal := systemStep

/-- The state whose very next step is the host's `CMD` write of the table's word: the write comes
first in the agenda, to a block that is idle and not faulted, as a command start needs
(30_encoding.md rule R91). Log entry 1 says how a program comes to run from `State.reset`. -/
def State.withFetchWord (s : State) (nbits w : Nat) : State :=
  { s with
    busy := false
    fault := false
    fsm := .idle
    agenda := cmdWrite s.params (tableWord nbits w) :: s.agenda }

end Sys2Proof.Machine
end

