-- ==== Sys2Proof/Machine/Notation.lean ====
section
/-!
DEFINITION. The host's program notation (30_encoding.md rule R103): each form as the turns of the
host it stands for, at the block's register base.
-/

namespace Sys2Proof.Machine

open Sys2Proof.Config

/-- `wr OFF, V`: one host 32-bit write. -/
def wr (p : Params) (offset : Nat) (v : Word) : Turn := .host (.regWrite (p.regBase + offset) 4 v)

/-- `rd OFF`: one host 32-bit read. -/
def rd (p : Params) (offset : Nat) : Turn := .host (.regRead (p.regBase + offset) 4)

/-- `wait` ends on a `STATUS` word whose `BUSY` is 0 or whose `FAULT` is 1. -/
def waitOver (status : Word) : Bool := !status.getLsbD 0 || status.getLsbD 1

/-- `wait`, as the `n` reads of `STATUS` it takes; `waitOver` says which read is the last. -/
def waitReads (p : Params) (n : Nat) : List Turn := List.replicate n (rd p 0x04)

/-- `READ B, S, T` up to its `wait`. -/
def readProgram (p : Params) (b s t : Word) : List Turn :=
  [wr p 0x08 b, wr p 0x0C s, wr p 0x10 t, wr p 0x00 readWord]

/-- `WRITE B, S, T` up to its `wait`. -/
def writeProgram (p : Params) (b s t : Word) : List Turn :=
  [wr p 0x08 b, wr p 0x0C s, wr p 0x10 t, wr p 0x00 writeWord]

/-- `CONFIG F, Bc, E`. -/
def configProgram (p : Params) (f bc e : Word) : List Turn :=
  [wr p 0x18 (e <<< 2 ||| bc <<< 1 ||| f)]

/-- `IDS own, bcast, tx`. -/
def idsProgram (p : Params) (own bcast tx : Word) : List Turn :=
  [wr p 0x1C own, wr p 0x20 bcast, wr p 0x24 tx]

end Sys2Proof.Machine
end

