-- ==== Sys2Proof/Safety.lean ====
section
/-!
DEFINITION. What counts as a good state and a safe run, in the terms the statements use: the
widths of the registers, the control state, what holds in each state of the block's machine, and
what the block has done at its peripheral interface.
-/

namespace Sys2Proof.Safety

open Sys2Proof.Machine Sys2Proof.Config

/-! ## What a good state is -/

/-- Every register holds a value of its width (10_state.md rules R23, R25, R27 and R32). -/
abbrev widthsOk (s : State) : Prop :=
  s.bufBase < 2 ^ s.params.addrW ∧ s.bufSize < 2 ^ s.params.sizeW ∧
  s.timeout < 2 ^ s.params.timeoutW ∧ s.countReg < 2 ^ s.params.sizeW ∧
  s.periph.tec < 2 ^ s.params.tecW ∧ s.dp.count < 2 ^ s.params.sizeW ∧
  s.dp.produced < 2 ^ cursorWidth s.params ∧ s.dp.txBase < 2 ^ s.params.addrW ∧
  s.dp.txSize < 2 ^ s.params.sizeW ∧ s.dp.txTimeout < 2 ^ s.params.timeoutW ∧
  s.dp.txOff < 2 ^ s.params.sizeW ∧ s.dp.errSnap < 2 ^ s.params.tecW

/-- A budget lies in `[-POLL_STEP, BUDGET_SCALE × (2^TIMEOUT_W - 1)]` (10_state.md rule R27). -/
abbrev budgetOk (p : Params) (b : Int) : Prop :=
  -(p.pollStep : Int) ≤ b ∧ b ≤ initialBudget (2 ^ p.timeoutW - 1)

/-- The status flags agree with the state of the block (10_state.md rules R22 and R35,
60_exceptions.md rule R206), and `IRQ_MASK` is deasserted between steps (40_transmit.md R126). -/
abbrev controlOk (s : State) : Prop :=
  (s.busy = true ↔ s.fsm ≠ .idle ∧ s.fsm ≠ .fault) ∧
  (s.fault = true ↔ s.fsm = .fault) ∧
  (s.fault = true ↔ s.faultCause ≠ .none) ∧
  (s.fault = false → s.faultInfo = 0) ∧
  (s.busy = true → s.result = .none) ∧
  (s.busy = true → s.lastOp = running s) ∧
  s.irqMask = false ∧
  s.cursor ≤ s.params.nRx

/-- A started READ has a buffer of at least 8 bytes below the top of the buffer memory, and its
running count lies within it (41_receive.md rules R141 and R147). -/
abbrev readReady (s : State) : Prop :=
  maxFrameLen ≤ s.bufSize ∧ s.bufBase + s.bufSize ≤ spaceEnd s ∧ s.dp.count ≤ s.bufSize

/-- The receive slot under the cursor is full (10_state.md rule R34 E2). -/
abbrev slotHeld (s : State) : Prop := (slotAt s s.cursor).any (·.full) = true

/-- A frame has been accepted and fits (41_receive.md rule R147). -/
abbrev frameTaken (s : State) : Prop :=
  readReady s ∧ 0 ≤ s.dp.rxBudget ∧ s.cursor < s.params.nRx ∧ s.dp.produced ≤ s.cursor + 1 ∧
  s.dp.len.toNat ≤ maxFrameLen ∧ s.dp.count + s.dp.len.toNat ≤ s.bufSize

/-- The operands a WRITE runs with are its caller's (30_encoding.md rule R91, 41_receive.md
rule R150). -/
abbrev callerOk (s : State) : Prop :=
  (s.dp.txRet = .host →
    s.dp.txBase = s.bufBase ∧ s.dp.txSize = s.bufSize ∧ s.dp.txTimeout = s.timeout) ∧
  (s.dp.txRet = .rx →
    frameTaken s ∧ s.dp.txBase = cut s.params.addrW (bufAddr s s.dp.count) ∧
    s.dp.txSize = s.dp.len.toNat ∧ s.dp.txTimeout = 0)

/-- A WRITE past `TX_START` has something to send and a buffer within the buffer memory
(40_transmit.md rule R121). -/
abbrev writeReady (s : State) : Prop :=
  callerOk s ∧ 0 < s.dp.txSize ∧ s.dp.txBase + s.dp.txSize ≤ spaceEnd s

/-- A chunk is loaded: it is the next one the chunker gives (42_datapath.md rule R176). -/
abbrev chunkReady (s : State) : Prop :=
  writeReady s ∧ s.dp.txOff < s.dp.txSize ∧
  s.dp.chunkLen.toNat = chunkLength s.dp.txSize s.dp.txOff

/-- What holds in each state of the block's machine (10_state.md rule R35). -/
def phaseOk (s : State) : Bool :=
  match s.fsm with
  | .idle => true
  | .fault => true
  | .rxStart => true
  | .rxClear => decide (readReady s ∧ s.dp.count = 0 ∧ s.dp.produced = 0)
  | .rxPassTop => decide (readReady s ∧ s.dp.produced ≤ s.cursor)
  | .rxBus => decide (readReady s ∧ 0 ≤ s.dp.rxBudget ∧ s.dp.produced ≤ s.cursor)
  | .rxTest =>
    decide (readReady s ∧ 0 ≤ s.dp.rxBudget ∧ s.dp.produced ≤ s.cursor ∧ s.cursor < s.params.nRx)
  | .rxFilter =>
    decide (readReady s ∧ 0 ≤ s.dp.rxBudget ∧ s.dp.produced ≤ s.cursor ∧ s.cursor < s.params.nRx ∧
      slotHeld s)
  | .rxCopy => decide (frameTaken s ∧ slotHeld s)
  | .rxRelease => decide (frameTaken s ∧ slotHeld s)
  | .rxEcho => decide (frameTaken s)
  | .rxAdvance => decide (frameTaken s)
  | .rxPassEnd =>
    decide (readReady s ∧ 0 ≤ s.dp.rxBudget ∧ s.dp.produced ≤ s.cursor ∧ s.cursor = s.params.nRx)
  | .rxFinal => decide (readReady s)
  | .txStart => decide (callerOk s)
  | .txWaitFree => decide (writeReady s ∧ s.dp.txOff = 0)
  | .txLoad => decide (writeReady s ∧ s.dp.txOff < s.dp.txSize ∧ s.periph.tx.busy = false)
  | .txTrigger => decide (chunkReady s ∧ s.periph.tx.busy = false)
  | .txPollErr => decide (chunkReady s)
  | .txPollFree => decide (chunkReady s ∧ 0 ≤ s.dp.txBudget)
  | .txFinal => decide (writeReady s ∧ s.dp.txOff = s.dp.txSize)

/-- The buffer memory has its canonical form and lists only addresses it has
(20_memory.md rule R60). -/
abbrev memoryOk (s : State) : Prop := s.mem.wf ∧ ∀ c ∈ s.mem, c.1 < spaceEnd s

/-- The invariant of the machine: it holds at reset and every step of every agent keeps it. -/
abbrev Consistent (s : State) : Prop :=
  fits s = true ∧ widthsOk s ∧ budgetOk s.params s.dp.rxBudget ∧ budgetOk s.params s.dp.txBudget ∧
  controlOk s ∧ phaseOk s = true ∧ memoryOk s

/-- Every state of a READ after its clear in which a packet could have been recognised but was not
(41_receive.md rule R154). -/
def scanning : Fsm → Bool
  | .rxPassTop | .rxBus | .rxTest | .rxFilter | .rxCopy | .rxRelease | .rxEcho | .rxAdvance
  | .rxPassEnd | .rxFinal => true
  | .idle | .fault | .rxStart | .rxClear | .txStart | .txWaitFree | .txLoad | .txTrigger
  | .txPollErr | .txPollFree | .txFinal => false

/-- While a READ scans, the bytes received so far are no complete packet (41_receive.md rule R154);
an echo inside the READ included. -/
abbrev NoPacketYet (s : State) : Prop :=
  scanning s.fsm = true ∨ (running s = some .read ∧ writeRuns s = true) →
    complete s s.dp.count = some false

/-! ## What the block has done at its peripheral interface -/

/-- Whether a call is a `Delay`. -/
def Call.isDelay : Call → Bool
  | .delay _ => true
  | .rxFull _ | .rxId _ | .rxLen _ | .rxLane _ _ | .rxRelease _ | .txFull | .txSend _ _ _ _
  | .txErrCount | .busState => false

/-- Whether a call is `txFull()`. -/
def Call.isTxFull : Call → Bool
  | .txFull => true
  | .rxFull _ | .rxId _ | .rxLen _ | .rxLane _ _ | .rxRelease _ | .delay _ | .txSend _ _ _ _
  | .txErrCount | .busState => false

/-- The frame a call hands to the transmit slot, if it is `txSend`. -/
def Call.sent : Call → Option (FrameId × FrameLen × List Byte)
  | .txSend id len data _ => some (id, len, data)
  | .rxFull _ | .rxId _ | .rxLen _ | .rxLane _ _ | .rxRelease _ | .delay _ | .txFull
  | .txErrCount | .busState => none

/-- How many `Delay` calls the block has made. -/
def delays (s : State) : Nat := s.calls.countP Call.isDelay

/-- How many `txFull()` calls the block has made. -/
def txFullCalls (s : State) : Nat := s.calls.countP Call.isTxFull

/-- The frames the block has handed to the transmit slot, oldest first. -/
def sentFrames (s : State) : List (FrameId × FrameLen × List Byte) :=
  (s.calls.filterMap Call.sent).reverse

/-- `n` bytes of a buffer memory from `base` upward. -/
def bytesAt (m : Memory) (base n : Nat) : List Byte :=
  (List.range n).map (fun j => m.read (base + j))

/-- The frames of a WRITE of `size` bytes at `base` with identifier `id`: the chunks at offsets
`0, 8, 16, ...` (40_transmit.md rule R122, 42_datapath.md rule R176). `n` is how many of them are
taken, from chunk `k` on. -/
def chunkFrames (m : Memory) (id : FrameId) (base size : Nat) (k : Nat) :
    Nat → List (FrameId × FrameLen × List Byte)
  | 0 => []
  | n + 1 =>
    (id, BitVec.ofNat 4 (chunkLength size (8 * k)),
      bytesAt m (base + 8 * k) (chunkLength size (8 * k))) ::
    chunkFrames m id base size (k + 1) n

/-- How many chunks a buffer of `size` bytes has, `ceil(size / 8)` (42_datapath.md rule R176). -/
def chunkCount (size : Nat) : Nat := (size + 7) / 8

/-! ## What the rules say, in the statements' own words -/

/-- The block after the first fault, which a fault names with a cause and a recorded value
(60_exceptions.md rule R206); every other register is as before. -/
def faulted (s : State) (c : FaultCause) (info : Word) : State :=
  { s with faultCause := c, faultInfo := info, fault := true, busy := false, irqMask := false,
           fsm := .fault }

/-- The block after the command ended with a result and a count (10_state.md rule R37). -/
def ended (s : State) (r : Result) (count : Nat) : State :=
  { s with result := r, countReg := count, busy := false, fsm := .idle }

/-- The frame's destination is accepted (42_datapath.md rule R175). -/
abbrev Accepts (s : State) (id : FrameId) : Prop :=
  s.config.getLsbD 0 = false ∨ id = s.ownId ∨ (s.config.getLsbD 1 = true ∧ id = s.bcastId)

/-- The first `count` bytes of the buffer are a complete packet (42_datapath.md rule R174,
30_encoding.md rule R99). -/
abbrev IsPacket (s : State) (count : Nat) : Prop :=
  count = 7 + ((s.mem.read (s.bufBase + 2)).toNat + 256 * (s.mem.read (s.bufBase + 3)).toNat) ∧
  s.mem.read s.bufBase = 0x01 ∧ s.mem.read (s.bufBase + (count - 1)) = 0x17

/-- The buffer memory holds the bytes `Complete(count)` reads (42_datapath.md rule R174). -/
abbrev PacketReadable (s : State) (count : Nat) : Prop :=
  s.bufBase + 3 < 2 ^ s.params.addrW ∧ s.bufBase + (count - 1) < 2 ^ s.params.addrW

/-- The peripheral after the release of receive slot `i`, which held `slot`. -/
def released (s : State) (i : Nat) (slot : RxSlot) : Peripheral :=
  { s.periph with slots := s.periph.slots.set i { slot with full := false } }

/-- A bound on the micro-steps a WRITE past `TX_START` still makes, whatever the environment does
(70_reset_and_hazards.md rule R240): two for each unit of budget left, five for each byte left, and
the way to the next poll. -/
def writeFuel (s : State) : Nat :=
  2 * (s.dp.txBudget + s.params.pollStep).toNat + 5 * (s.dp.txSize - s.dp.txOff) +
    match s.fsm with
    | .txWaitFree => 5
    | .txLoad => 4
    | .txTrigger => 3
    | .txPollErr => 2
    | .txPollFree => 1
    | .txStart | .txFinal | .idle | .fault | .rxStart | .rxClear | .rxPassTop | .rxBus | .rxTest
    | .rxFilter | .rxCopy | .rxRelease | .rxEcho | .rxAdvance | .rxPassEnd | .rxFinal => 0

/-! ## Runs -/

/-- `k` steps of the machine. -/
abbrev run (k : Nat) (s : State) : Machine.Outcome := Sys2Proof.core.run k s

/-- The block is idle and not faulted: a `CMD` write is accepted (10_state.md rule R29). -/
abbrev ready (s : State) : Prop := s.fsm = .idle ∧ s.busy = false ∧ s.fault = false

/-- The turns of an environment that frees the transmit slot after each trigger: the block loads and
triggers, the slot frees, the block polls twice (40_transmit.md rules R125 to R128); `n` chunks. -/
def promptTurns : Nat → List Turn
  | 0 => []
  | n + 1 => [.block, .block, .env .txFree, .block, .block] ++ promptTurns n

/-- The turns that start a READ of 8 bytes on the machine after reset and bring it to its scan:
`BUF_SIZE`, `CMD`, then `RX_START`, `RX_CLEAR` and `RX_PASS_TOP`. -/
def endlessPrelude : List Turn :=
  [.host (.regWrite 0x0C 4 8), cmdWrite defaultParams 1, .block, .block, .block]

/-- One pass of that READ over its four slots, with an empty frame arriving in slot 0 before it: six
micro-steps take the frame, six pass the empty slots, three end the pass and begin the next
(41_receive.md rules R144 to R152). -/
def endlessRefrain : List Turn :=
  .env (.arrive 0 0 0 RxSlot.blank.lanes) :: List.replicate 15 .block

end Sys2Proof.Safety
end

