-- ==== Sys2Proof/Certificates/Slice0/Obligations.lean ====
section
/-!
DEFINITION. The statements for the provers, from the numbered rules of the spec. Each holds for
every parameter setting the state carries; a premise on a state is one the rule names, or a part of
`Safety.Consistent`, which is itself stated to hold at reset and along every step.
-/

open Sys2Proof Sys2Proof.Machine Sys2Proof.Config Sys2Proof.Safety

/-! ## Commands and their words -/

/-- The two words of the command table and words beside them (30_encoding.md rules R90, R94). -/
def Obligations.CommandWordsDecodeAsTabled : Prop :=
  decode 0x00000001#32 = .instr .read ∧ decode 0x00000002#32 = .instr .write ∧
  decodeTableWord 32 0x00000001 = some .read ∧ decodeTableWord 32 0x00000002 = some .write ∧
  decode 0x00000000#32 = .illegal (.illegalCmd 0x00000000#32) ∧
  decode 0x00000003#32 = .illegal (.illegalCmd 0x00000003#32) ∧
  decode 0x00000101#32 = .illegal (.illegalCmd 0x00000101#32) ∧
  decode 0x80000002#32 = .illegal (.illegalCmd 0x80000002#32)

/-- Decoding the word of a command gives the command, and a command has one word (rule R90). -/
def Obligations.DecodeAndEncodeAgree : Prop :=
  (∀ i : Instr, i.wellFormed = true → decode (encode i) = .instr i) ∧
  ∀ (w : Word) (i : Instr), decode w = .instr i → w = encode i

/-- What a `CMD` write does to an idle block (30_encoding.md rule R91): the two commands start, and
every other word, whichever of its bits is wrong, faults and starts nothing. -/
def Obligations.CommandWriteIsDecoded : Prop :=
  ∀ (s : State) (rest : List Turn) (w : Word), fits s = true → ready s →
    s.agenda = cmdWrite s.params w :: rest →
    (w = 0x00000001#32 → step s = .next
      { s with agenda := rest, busy := true, result := .none, echoErr := false,
               lastOp := some .read, fsm := .rxStart }) ∧
    (w = 0x00000002#32 → step s = .next
      { s with agenda := rest, busy := true, result := .none, echoErr := false,
               lastOp := some .write, fsm := .txStart,
               dp := { s.dp with txBase := s.bufBase, txSize := s.bufSize,
                                 txTimeout := s.timeout, txRet := .host } }) ∧
    (w ≠ 0x00000001#32 → w ≠ 0x00000002#32 →
      step s = .next (faulted { s with agenda := rest } .illegalCmd w))

/-- Both commands start on an idle block, and nothing but what rule R91 lists changes. -/
def Obligations.CommandsStartWhenIdle : Prop :=
  ∀ s : State, ready s →
    exec .read s = .next
      { s with busy := true, result := .none, echoErr := false, lastOp := some .read,
               fsm := .rxStart } ∧
    exec .write s = .next
      { s with busy := true, result := .none, echoErr := false, lastOp := some .write,
               fsm := .txStart,
               dp := { s.dp with txBase := s.bufBase, txSize := s.bufSize,
                                 txTimeout := s.timeout, txRet := .host } }

/-- A step runs the decoded command: the `CMD` write of a command's word to an idle block is `exec`
of that command, and every turn of the block while a command runs is `exec` of that command; the
step adds the turn it takes off (10_state.md rules R35 and R36). Whose turn it is, the agenda's first,
else the refrain's first, else the block's, is the model's choice (DESIGN CHOICE, log entry 1). -/
def Obligations.StepRunsTheDecodedCommand : Prop :=
  (∀ (s : State) (w : Word) (i : Instr), fits s = true → ready s →
    nextTurn s = cmdWrite s.params w → decode w = .instr i → step s = exec i (popTurn s)) ∧
  (∀ (s : State) (i : Instr), fits s = true → running s = some i → nextTurn s = .block →
    step s = exec i (popTurn s)) ∧
  ∀ (s : State) (u : Turn) (rest : List Turn),
    (s.agenda = u :: rest → nextTurn s = u ∧ popTurn s = { s with agenda := rest }) ∧
    (s.agenda = [] → s.refrain = u :: rest →
      nextTurn s = u ∧ popTurn s = { s with agenda := rest }) ∧
    (s.agenda = [] → s.refrain = [] → nextTurn s = .block ∧ popTurn s = s)

/-! ## The host register port -/

/-- The order of a host write's cases, and host reads (10_state.md rule R29). -/
def Obligations.HostAccessFollowsItsOrder : Prop :=
  ∀ (s : State) (rest : List Turn) (offset : Nat) (data : Word), fits s = true →
    offset % 4 = 0 →
    (s.agenda = .host (.regWrite (s.params.regBase + offset) 4 data) :: rest →
      (s.fault = true → step s = .next { s with agenda := rest }) ∧
      (s.fault = false → s.busy = true →
        step s = .next (faulted { s with agenda := rest } .busyWrite (BitVec.ofNat 32 offset))) ∧
      (s.fault = false → s.busy = false →
        (offset = 0x08 → step s = .next
          { s with agenda := rest, bufBase := data.toNat % 2 ^ s.params.addrW }) ∧
        (offset = 0x0C → step s = .next
          { s with agenda := rest, bufSize := data.toNat % 2 ^ s.params.sizeW }) ∧
        (offset = 0x10 → step s = .next
          { s with agenda := rest, timeout := data.toNat % 2 ^ s.params.timeoutW }) ∧
        (offset = 0x18 → step s = .next
          { s with agenda := rest, config := data.extractLsb' 0 3 }) ∧
        (offset = 0x1C → step s = .next
          { s with agenda := rest, ownId := data.extractLsb' 0 11 }) ∧
        (offset = 0x20 → step s = .next
          { s with agenda := rest, bcastId := data.extractLsb' 0 11 }) ∧
        (offset = 0x24 → step s = .next
          { s with agenda := rest, txId := data.extractLsb' 0 11 }) ∧
        (offset = 0x00 →
          (∀ i : Instr, decode data = .instr i → step s = exec i { s with agenda := rest }) ∧
          (∀ w : Word, decode data = .illegal (.illegalCmd w) →
            step s = .next (faulted { s with agenda := rest } .illegalCmd data))) ∧
        (offset ∉ [0x00, 0x08, 0x0C, 0x10, 0x18, 0x1C, 0x20, 0x24] →
          step s = .next
            (faulted { s with agenda := rest } .hostAccess (BitVec.ofNat 32 offset))))) ∧
    (s.agenda = .host (.regRead (s.params.regBase + offset) 4) :: rest →
      ∃ v : Word, step s = .next { s with agenda := rest, readData := v } ∧
        (0x30 < offset → v = 0))

/-- An access of the wrong shape faults, for a read or a write; on a faulted block it keeps the first
fault. An admitted read returns the register (20_memory.md rule R64). -/
def Obligations.MisshapenAccessFaults : Prop :=
  ∀ (s : State) (rest : List Turn) (offset width : Nat) (data : Word), fits s = true →
    ((width ≠ 4 ∨ offset % 4 ≠ 0) → s.fault = false →
      (s.agenda = .host (.regWrite (s.params.regBase + offset) width data) :: rest ∨
        s.agenda = .host (.regRead (s.params.regBase + offset) width) :: rest) →
      step s = .next
        (faulted { s with agenda := rest } .hostAccess (BitVec.ofNat 32 offset))) ∧
    ((width ≠ 4 ∨ offset % 4 ≠ 0) → s.fault = true →
      (s.agenda = .host (.regWrite (s.params.regBase + offset) width data) :: rest ∨
        s.agenda = .host (.regRead (s.params.regBase + offset) width) :: rest) →
      step s = .next
        { s with agenda := rest, busy := false, irqMask := false, fsm := .fault }) ∧
    (s.agenda = .host (.regRead (s.params.regBase + offset) 4) :: rest →
      (offset = 0x00 → step s = .next { s with agenda := rest, readData := 0 }) ∧
      (offset = 0x04 → step s = .next { s with agenda := rest, readData := statusWord s }) ∧
      (offset = 0x08 → step s = .next
        { s with agenda := rest, readData := BitVec.ofNat 32 s.bufBase }) ∧
      (offset = 0x0C → step s = .next
        { s with agenda := rest, readData := BitVec.ofNat 32 s.bufSize }) ∧
      (offset = 0x10 → step s = .next
        { s with agenda := rest, readData := BitVec.ofNat 32 s.timeout }) ∧
      (offset = 0x14 → step s = .next
        { s with agenda := rest, readData := BitVec.ofNat 32 s.countReg }) ∧
      (offset = 0x18 → step s = .next
        { s with agenda := rest, readData := BitVec.ofNat 32 s.config.toNat }) ∧
      (offset = 0x1C → step s = .next
        { s with agenda := rest, readData := BitVec.ofNat 32 s.ownId.toNat }) ∧
      (offset = 0x20 → step s = .next
        { s with agenda := rest, readData := BitVec.ofNat 32 s.bcastId.toNat }) ∧
      (offset = 0x24 → step s = .next
        { s with agenda := rest, readData := BitVec.ofNat 32 s.txId.toNat }) ∧
      (offset = 0x28 → step s = .next
        { s with agenda := rest, readData := BitVec.ofNat 32 s.cursor }) ∧
      (offset = 0x2C → step s = .next
        { s with agenda := rest, readData := BitVec.ofNat 32 s.faultCause.code.toNat }) ∧
      (offset = 0x30 → step s = .next { s with agenda := rest, readData := s.faultInfo }) ∧
      (0x30 < offset → offset % 4 = 0 → step s = .next { s with agenda := rest, readData := 0 }))

/-- The `STATUS` word holds its fields at their places, and 0 in every reserved bit
(10_state.md rule R22). -/
def Obligations.StatusWordHoldsItsFields : Prop :=
  ∀ s : State,
    (readReg 0x04 s).getLsbD 0 = s.busy ∧ (readReg 0x04 s).getLsbD 1 = s.fault ∧
    (readReg 0x04 s).getLsbD 2 = s.echoErr ∧ (readReg 0x04 s).getLsbD 3 = false ∧
    (readReg 0x04 s).extractLsb' 4 3 = s.result.code ∧ (readReg 0x04 s).getLsbD 7 = false ∧
    (readReg 0x04 s).extractLsb' 8 2 = lastOpCode s.lastOp ∧
    (readReg 0x04 s).extractLsb' 10 6 = 0 ∧
    (readReg 0x04 s).extractLsb' 16 5 = s.fsm.code ∧ (readReg 0x04 s).extractLsb' 21 11 = 0

/-- `STATE`, `RESULT` and `FAULT_CAUSE` read as rules R95, R92 and R93 code them, so that no reserved
code is ever read (rule R94). -/
def Obligations.CodesAsTabled : Prop :=
  ∀ s : State,
    ((readReg 0x04 s).extractLsb' 16 5).toNat =
      (match s.fsm with
      | .idle => 0x00 | .rxStart => 0x01 | .rxClear => 0x02 | .rxPassTop => 0x03
      | .rxBus => 0x04 | .rxTest => 0x05 | .rxFilter => 0x06 | .rxCopy => 0x07
      | .rxRelease => 0x08 | .rxEcho => 0x09 | .rxAdvance => 0x0A | .rxPassEnd => 0x0B
      | .rxFinal => 0x0C | .txStart => 0x10 | .txWaitFree => 0x11 | .txLoad => 0x12
      | .txTrigger => 0x13 | .txPollErr => 0x14 | .txPollFree => 0x15 | .txFinal => 0x16
      | .fault => 0x1F) ∧
    ((readReg 0x04 s).extractLsb' 4 3).toNat =
      (match s.result with
      | .none => 0 | .ok => 1 | .timeout => 2 | .invalidState => 3 | .empty => 4) ∧
    (readReg 0x2C s).toNat =
      (match s.faultCause with
      | .none => 0 | .illegalCmd => 1 | .busyWrite => 2 | .hostAccess => 3 | .rxSize => 4
      | .txSlotType => 5 | .addrRange => 6 | .overrun => 7 | .periphLen => 8)

/-- A written register reads back the low bits that fit its width (10_state.md rules R23, R24):
a write and a read of the same register, as two host turns on an idle block. -/
def Obligations.WrittenRegisterReadsBack : Prop :=
  ∀ (s : State) (rest : List Turn) (offset width : Nat) (data : Word), fits s = true → ready s →
    (offset, width) ∈ [(0x08, s.params.addrW), (0x0C, s.params.sizeW),
      (0x10, s.params.timeoutW), (0x18, 3), (0x1C, 11), (0x20, 11), (0x24, 11)] →
    s.agenda = wr s.params offset data :: rd s.params offset :: rest →
    ∃ t : State, run 2 s = .next t ∧ t.readData.toNat = data.toNat % 2 ^ width ∧
      t.agenda = rest ∧ t.mem = s.mem ∧ t.periph = s.periph ∧ t.calls = s.calls ∧ ready t

/-! ## READ, micro-step by micro-step -/

/-- `RX_START` (41_receive.md rule R141). -/
def Obligations.RxStartChecksTheBuffer : Prop :=
  ∀ s : State, s.fsm = .rxStart → s.fault = false →
    (s.bufSize = 0 → exec .read s = .next (ended s .ok 0)) ∧
    (0 < s.bufSize → s.bufSize < 8 →
      exec .read s = .next (faulted s .rxSize (BitVec.ofNat 32 s.bufSize))) ∧
    (8 ≤ s.bufSize → 2 ^ s.params.addrW < s.bufBase + s.bufSize →
      exec .read s = .next (faulted s .addrRange (BitVec.ofNat 32 s.bufBase))) ∧
    (8 ≤ s.bufSize → s.bufBase + s.bufSize ≤ 2 ^ s.params.addrW →
      exec .read s = .next
        { s with fsm := .rxClear,
                 dp := { s.dp with count := 0, produced := 0,
                                   rxBudget := ((10 * s.timeout : Nat) : Int) } })

/-- `RX_CLEAR` (41_receive.md rule R142): the whole buffer reads `0x00`, and no other byte of the
memory and no other state changes. -/
def Obligations.RxClearZeroesTheBuffer : Prop :=
  ∀ s : State, s.fsm = .rxClear → s.mem.wf → s.bufBase + s.bufSize ≤ 2 ^ s.params.addrW →
    ∃ m : Memory, exec .read s = .next { s with mem := m, fsm := .rxPassTop } ∧ m.wf ∧
      ∀ a : Nat, m.read a =
        if s.bufBase ≤ a ∧ a < s.bufBase + s.bufSize then 0x00 else s.mem.read a

/-- `RX_PASS_TOP` (41_receive.md rule R144). -/
def Obligations.RxPassTopWrapsTheCursor : Prop :=
  ∀ s : State, s.fsm = .rxPassTop →
    (s.dp.rxBudget < 0 → exec .read s = .next { s with fsm := .rxFinal }) ∧
    (0 ≤ s.dp.rxBudget → s.params.nRx ≤ s.cursor →
      exec .read s = .next
        { s with cursor := 0, fsm := .rxBus, dp := { s.dp with produced := 0 } }) ∧
    (0 ≤ s.dp.rxBudget → s.cursor < s.params.nRx →
      exec .read s = .next { s with fsm := .rxBus })

/-- `RX_BUS` (41_receive.md rule R145): `BUS_OFF` ends the READ before the slot is examined. -/
def Obligations.RxBusEndsTheReadOnBusOff : Prop :=
  ∀ s : State, s.fsm = .rxBus → s.dp.count < 2 ^ s.params.sizeW →
    (s.params.nRx ≤ s.cursor → exec .read s = .next { s with fsm := .rxPassEnd }) ∧
    (s.cursor < s.params.nRx → s.periph.bus = .busOff →
      exec .read s = .next
        (ended { s with calls := .busState :: s.calls } .invalidState s.dp.count)) ∧
    (s.cursor < s.params.nRx → s.periph.bus ≠ .busOff →
      exec .read s = .next { s with calls := .busState :: s.calls, fsm := .rxTest })

/-- `RX_TEST` (41_receive.md rule R146). -/
def Obligations.RxTestExaminesTheSlot : Prop :=
  ∀ (s : State) (slot : RxSlot), s.fsm = .rxTest → s.cursor < s.params.nRx →
    s.periph.slots[s.cursor]? = some slot →
    (slot.full = true →
      exec .read s = .next { s with calls := .rxFull s.cursor :: s.calls, fsm := .rxFilter }) ∧
    (slot.full = false →
      exec .read s = .next
        { s with calls := .rxFull s.cursor :: s.calls, cursor := s.cursor + 1, fsm := .rxBus })

/-- `RX_FILTER` (41_receive.md rule R147). -/
def Obligations.RxFilterTakesOrRejectsTheFrame : Prop :=
  ∀ (s : State) (slot : RxSlot), s.fsm = .rxFilter → s.fault = false →
    s.cursor < s.params.nRx → s.dp.produced ≤ s.cursor →
    s.periph.slots[s.cursor]? = some slot →
    (¬ Accepts s slot.id →
      exec .read s = .next
        { s with periph := released s s.cursor slot, cursor := s.cursor + 1, fsm := .rxBus,
                 calls := .rxRelease s.cursor :: .rxId s.cursor :: s.calls }) ∧
    (Accepts s slot.id →
      (8 < slot.len.toNat →
        exec .read s = .next (faulted
          { s with calls := .rxLen s.cursor :: .rxId s.cursor :: s.calls,
                   dp := { s.dp with produced := s.dp.produced + 1, len := slot.len } }
          .periphLen (BitVec.ofNat 32 (s.cursor * 16 + slot.len.toNat)))) ∧
      (slot.len.toNat ≤ 8 → s.bufSize < s.dp.count + slot.len.toNat →
        exec .read s = .next (faulted
          { s with calls := .rxLen s.cursor :: .rxId s.cursor :: s.calls,
                   dp := { s.dp with produced := s.dp.produced + 1, len := slot.len } }
          .overrun (BitVec.ofNat 32 (s.dp.count * 16 + slot.len.toNat)))) ∧
      (slot.len.toNat ≤ 8 → s.dp.count + slot.len.toNat ≤ s.bufSize →
        exec .read s = .next
          { s with calls := .rxLen s.cursor :: .rxId s.cursor :: s.calls, fsm := .rxCopy,
                   dp := { s.dp with produced := s.dp.produced + 1, len := slot.len } }))

/-- `RX_COPY` (41_receive.md rule R148): payload index `k` is stored from its lane, and no other
byte of the memory changes. The call log is newest first, so the lane reads run from the highest
index down to 0. -/
def Obligations.RxCopyStoresTheCorrectedPayload : Prop :=
  ∀ (s : State) (slot : RxSlot), s.fsm = .rxCopy → s.mem.wf → s.dp.len.toNat ≤ 8 →
    s.periph.slots[s.cursor]? = some slot →
    s.bufBase + s.dp.count + s.dp.len.toNat ≤ 2 ^ s.params.addrW →
    ∃ (m : Memory) (lanesRead : List Call),
      exec .read s = .next
        { s with mem := m, calls := lanesRead ++ s.calls, fsm := .rxRelease } ∧ m.wf ∧
      (s.params.swapPartial = .fixedLanes →
        lanesRead = (List.range s.dp.len.toNat).map fun k =>
          .rxLane s.cursor (4 * (k / 4) + (3 - k % 4))) ∧
      (s.params.swapPartial = .presentOnly →
        lanesRead = (List.range s.dp.len.toNat).map fun k =>
          .rxLane s.cursor (4 * (k / 4) + (min 4 (s.dp.len.toNat - 4 * (k / 4)) - 1 - k % 4))) ∧
      (∀ k < s.dp.len.toNat,
        (s.params.swapPartial = .fixedLanes →
          some (m.read (s.bufBase + s.dp.count + k)) =
            slot.lanes[4 * (k / 4) + (3 - k % 4)]?) ∧
        (s.params.swapPartial = .presentOnly →
          some (m.read (s.bufBase + s.dp.count + k)) =
            slot.lanes[4 * (k / 4) + (min 4 (s.dp.len.toNat - 4 * (k / 4)) - 1 - k % 4)]?)) ∧
      ∀ a : Nat, (a < s.bufBase + s.dp.count ∨ s.bufBase + s.dp.count + s.dp.len.toNat ≤ a) →
        m.read a = s.mem.read a

/-- `RX_RELEASE` (41_receive.md rule R149). -/
def Obligations.RxReleaseFreesTheSlot : Prop :=
  ∀ (s : State) (slot : RxSlot), s.fsm = .rxRelease →
    s.periph.slots[s.cursor]? = some slot →
    (s.config.getLsbD 2 = true →
      exec .read s = .next
        { s with periph := released s s.cursor slot, calls := .rxRelease s.cursor :: s.calls,
                 fsm := .rxEcho }) ∧
    (s.config.getLsbD 2 = false →
      exec .read s = .next
        { s with periph := released s s.cursor slot, calls := .rxRelease s.cursor :: s.calls,
                 fsm := .rxAdvance })

/-- `RX_ECHO` sets up the nested WRITE of the bytes just copied (41_receive.md rule R150). -/
def Obligations.RxEchoSetsUpTheNestedWrite : Prop :=
  ∀ s : State, s.fsm = .rxEcho → s.dp.len.toNat < 2 ^ s.params.sizeW →
    s.bufBase + s.dp.count < 2 ^ s.params.addrW →
    exec .read s = .next
      { s with fsm := .txStart,
               dp := { s.dp with txBase := s.bufBase + s.dp.count, txSize := s.dp.len.toNat,
                                 txTimeout := 0, txRet := .rx } }

/-- `RX_ADVANCE` (41_receive.md rule R151): completion is tested right after the count advances,
and the cursor passes the completing slot as `ADVANCE_ON_COMPLETE` says. -/
def Obligations.RxAdvanceEndsOnACompletePacket : Prop :=
  ∀ s : State, s.fsm = .rxAdvance → s.cursor < s.params.nRx →
    s.dp.count + s.dp.len.toNat < 2 ^ s.params.sizeW →
    PacketReadable s (s.dp.count + s.dp.len.toNat) →
    (IsPacket s (s.dp.count + s.dp.len.toNat) →
      (s.params.advanceOnComplete = true →
        exec .read s = .next (ended
          { s with cursor := s.cursor + 1,
                   dp := { s.dp with count := s.dp.count + s.dp.len.toNat } }
          .ok (s.dp.count + s.dp.len.toNat))) ∧
      (s.params.advanceOnComplete = false →
        exec .read s = .next (ended
          { s with dp := { s.dp with count := s.dp.count + s.dp.len.toNat } }
          .ok (s.dp.count + s.dp.len.toNat)))) ∧
    (¬ IsPacket s (s.dp.count + s.dp.len.toNat) →
      exec .read s = .next
        { s with cursor := s.cursor + 1, fsm := .rxBus,
                 dp := { s.dp with count := s.dp.count + s.dp.len.toNat } })

/-- `RX_PASS_END` (41_receive.md rule R152). -/
def Obligations.RxPassEndSpendsOnlyOnAnIdlePass : Prop :=
  ∀ s : State, s.fsm = .rxPassEnd →
    (s.dp.produced = 0 →
      exec .read s = .next
        { s with calls := .delay s.params.pollStep :: s.calls, fsm := .rxPassTop,
                 dp := { s.dp with rxBudget := s.dp.rxBudget - (s.params.pollStep : Int) } }) ∧
    (0 < s.dp.produced → exec .read s = .next { s with fsm := .rxPassTop })

/-- `RX_FINAL` (41_receive.md rule R153): the length is read fresh from the buffer. -/
def Obligations.RxFinalChecksOnceMore : Prop :=
  ∀ s : State, s.fsm = .rxFinal → s.dp.count < 2 ^ s.params.sizeW →
    PacketReadable s s.dp.count →
    (IsPacket s s.dp.count → exec .read s = .next (ended s .ok s.dp.count)) ∧
    (¬ IsPacket s s.dp.count → exec .read s = .next (ended s .timeout s.dp.count))

/-! ## WRITE, micro-step by micro-step: the host's, and the echo of a READ -/

/-- `TX_START` (40_transmit.md rule R121), for a host WRITE and for an echo alike. -/
def Obligations.TxStartChecksItsOperands : Prop :=
  ∀ (s : State) (i : Instr), running s = some i → s.fsm = .txStart → s.fault = false →
    (s.slotTypeOk = false → exec i s = .next (faulted s .txSlotType 0)) ∧
    (s.slotTypeOk = true → s.dp.txSize = 0 →
      (s.params.writeEmptyStatus = .empty → exec i s = .next (txReturn s .empty 0)) ∧
      (s.params.writeEmptyStatus = .timeout → exec i s = .next (txReturn s .timeout 0))) ∧
    (s.slotTypeOk = true → 0 < s.dp.txSize →
      2 ^ s.params.addrW < s.dp.txBase + s.dp.txSize →
      exec i s = .next (faulted s .addrRange (BitVec.ofNat 32 s.dp.txBase))) ∧
    (s.slotTypeOk = true → 0 < s.dp.txSize →
      s.dp.txBase + s.dp.txSize ≤ 2 ^ s.params.addrW →
      exec i s = .next
        { s with fsm := .txWaitFree,
                 dp := { s.dp with txBudget := ((10 * s.dp.txTimeout : Nat) : Int),
                                   txOff := 0 } })

/-- `TX_WAIT_FREE` (40_transmit.md rule R124). -/
def Obligations.TxWaitFreePollsTheSlot : Prop :=
  ∀ (s : State) (i : Instr), running s = some i → s.fsm = .txWaitFree →
    (s.dp.txBudget < 0 → exec i s = .next (txReturn s .timeout s.dp.txOff)) ∧
    (0 ≤ s.dp.txBudget → s.periph.tx.busy = false →
      exec i s = .next { s with calls := .txFull :: s.calls, fsm := .txLoad }) ∧
    (0 ≤ s.dp.txBudget → s.periph.tx.busy = true → s.dp.txTimeout = 0 →
      exec i s = .next
        { s with calls := .txFull :: s.calls,
                 dp := { s.dp with txBudget := s.dp.txBudget - (s.params.pollStep : Int) } }) ∧
    (0 ≤ s.dp.txBudget → s.periph.tx.busy = true → s.dp.txTimeout ≠ 0 →
      exec i s = .next
        { s with calls := .delay s.params.pollStep :: .txFull :: s.calls,
                 dp := { s.dp with txBudget := s.dp.txBudget - (s.params.pollStep : Int) } })

/-- `TX_LOAD` (40_transmit.md rule R125): the chunk's bytes are the buffer's, in order, and only the
chunk registers, the snapshot and the call log change. -/
def Obligations.TxLoadReadsTheNextChunk : Prop :=
  ∀ (s : State) (i : Instr), running s = some i → s.fsm = .txLoad →
    s.dp.txOff < s.dp.txSize → s.dp.txBase + s.dp.txSize ≤ 2 ^ s.params.addrW →
    ∃ (n : FrameLen) (bytes : Lanes),
      exec i s = .next
        { s with calls := .txErrCount :: s.calls, fsm := .txTrigger,
                 dp := { s.dp with chunkLen := n, chunk := bytes,
                                   errSnap := s.periph.tec } } ∧
      n.toNat = min 8 (s.dp.txSize - s.dp.txOff) ∧ 1 ≤ n.toNat ∧ n.toNat ≤ 8 ∧
      ∀ j < 8, bytes[j]? =
        if j < n.toNat then some (s.mem.read (s.dp.txBase + s.dp.txOff + j))
        else s.dp.chunk[j]?

/-- `TX_TRIGGER` (40_transmit.md rule R126): the frame carries `TX_ID`, the chunk's length and its
bytes in payload order; `IRQ_MASK` is asserted during the call and deasserted after it. -/
def Obligations.TxTriggerSendsUnderTheMask : Prop :=
  ∀ (s : State) (i : Instr), running s = some i → s.fsm = .txTrigger →
    exec i s = .next
      { s with
        periph := { s.periph with tx :=
          { busy := true, id := s.txId, len := s.dp.chunkLen,
            data := s.dp.chunk.toList.take s.dp.chunkLen.toNat } }
        calls := .txSend s.txId s.dp.chunkLen
          (s.dp.chunk.toList.take s.dp.chunkLen.toNat) true :: s.calls
        irqMask := false
        fsm := .txPollErr }

/-- `TX_POLL_ERR` (40_transmit.md rule R127), under both settings of `TEC_FAIL_ON`. -/
def Obligations.TxPollErrFailsOnTheCounter : Prop :=
  ∀ (s : State) (i : Instr) (fails : Bool), running s = some i → s.fsm = .txPollErr →
    (s.params.tecFailOn = .change → (fails = true ↔ s.periph.tec ≠ s.dp.errSnap)) →
    (s.params.tecFailOn = .increase → (fails = true ↔ s.dp.errSnap < s.periph.tec)) →
    (s.dp.txBudget < 0 → exec i s = .next (txReturn s .timeout s.dp.txOff)) ∧
    (0 ≤ s.dp.txBudget → fails = true →
      exec i s = .next
        (txReturn { s with calls := .txErrCount :: s.calls } .timeout s.dp.txOff)) ∧
    (0 ≤ s.dp.txBudget → fails = false →
      exec i s = .next { s with calls := .txErrCount :: s.calls, fsm := .txPollFree })

/-- `TX_POLL_FREE` (40_transmit.md rule R128). -/
def Obligations.TxPollFreeCompletesTheChunk : Prop :=
  ∀ (s : State) (i : Instr), running s = some i → s.fsm = .txPollFree →
    s.dp.txOff + s.dp.chunkLen.toNat < 2 ^ s.params.sizeW →
    (s.periph.tx.busy = false → s.dp.txOff + s.dp.chunkLen.toNat = s.dp.txSize →
      exec i s = .next
        { s with calls := .txFull :: s.calls, fsm := .txFinal,
                 dp := { s.dp with txOff := s.dp.txOff + s.dp.chunkLen.toNat } }) ∧
    (s.periph.tx.busy = false → s.dp.txOff + s.dp.chunkLen.toNat ≠ s.dp.txSize →
      exec i s = .next
        { s with calls := .txFull :: s.calls, fsm := .txLoad,
                 dp := { s.dp with txOff := s.dp.txOff + s.dp.chunkLen.toNat } }) ∧
    (s.periph.tx.busy = true → s.dp.txTimeout = 0 →
      exec i s = .next
        { s with calls := .txFull :: s.calls, fsm := .txPollErr,
                 dp := { s.dp with txBudget := s.dp.txBudget - (s.params.pollStep : Int) } }) ∧
    (s.periph.tx.busy = true → s.dp.txTimeout ≠ 0 →
      exec i s = .next
        { s with calls := .delay s.params.pollStep :: .txFull :: s.calls, fsm := .txPollErr,
                 dp := { s.dp with txBudget := s.dp.txBudget - (s.params.pollStep : Int) } })

/-- `TX_FINAL` (40_transmit.md rule R129), under both settings of `TX_FAULT_STATES`. -/
def Obligations.TxFinalChecksTheBus : Prop :=
  ∀ (s : State) (i : Instr) (bad : Bool), running s = some i → s.fsm = .txFinal →
    (s.params.txFaultStates = .busOffOnly → (bad = true ↔ s.periph.bus = .busOff)) →
    (s.params.txFaultStates = .passiveAndBusOff → (bad = true ↔ s.periph.bus ≠ .active)) →
    (bad = true →
      exec i s = .next
        (txReturn { s with calls := .busState :: s.calls } .invalidState s.dp.txSize)) ∧
    (bad = false →
      exec i s = .next (txReturn { s with calls := .busState :: s.calls } .ok s.dp.txSize))

/-- Where a WRITE returns (40_transmit.md rule R133): a host WRITE finishes with its count; an echo
drops the count, records a failure in `ECHO_ERR` and goes on with the READ. -/
def Obligations.WriteReturnsToItsCaller : Prop :=
  ∀ (s : State) (r : Result) (n : Nat), r ≠ .none → n < 2 ^ s.params.sizeW →
    (s.dp.txRet = .host → txReturn s r n = ended s r n) ∧
    (s.dp.txRet = .rx → r = .ok ∨ r = .empty →
      txReturn s r n = { s with fsm := .rxAdvance }) ∧
    (s.dp.txRet = .rx → r ≠ .ok → r ≠ .empty →
      txReturn s r n = { s with echoErr := true, fsm := .rxAdvance })

/-! ## Frames -/

/-- No micro-step of a WRITE, the host's or an echo's, changes a byte of the memory, the receive
slots, the cursor, an operand or configuration register or the READ's own registers
(10_state.md rule R38, 41_receive.md rule R150). -/
def Obligations.TransmitterFrame : Prop :=
  ∀ (s t : State) (i : Instr), running s = some i → writeRuns s = true → exec i s = .next t →
    (∀ a : Nat, t.mem.read a = s.mem.read a) ∧
    t.params = s.params ∧ t.bufBase = s.bufBase ∧ t.bufSize = s.bufSize ∧
    t.timeout = s.timeout ∧ t.config = s.config ∧ t.ownId = s.ownId ∧ t.bcastId = s.bcastId ∧
    t.txId = s.txId ∧ t.cursor = s.cursor ∧ t.lastOp = s.lastOp ∧
    t.dp.count = s.dp.count ∧ t.dp.rxBudget = s.dp.rxBudget ∧
    t.dp.produced = s.dp.produced ∧ t.dp.len = s.dp.len ∧ t.dp.txBase = s.dp.txBase ∧
    t.dp.txSize = s.dp.txSize ∧ t.dp.txTimeout = s.dp.txTimeout ∧ t.dp.txRet = s.dp.txRet ∧
    t.periph.slots = s.periph.slots ∧ t.periph.tec = s.periph.tec ∧
    t.periph.bus = s.periph.bus ∧ t.slotTypeOk = s.slotTypeOk ∧ t.agenda = s.agenda ∧
    t.refrain = s.refrain ∧ t.readData = s.readData ∧ t.bufData = s.bufData ∧ t.draws = s.draws ∧
    (s.fsm ≠ .txTrigger → t.periph.tx = s.periph.tx) ∧
    (i = .read → t.result = s.result ∧ t.countReg = s.countReg) ∧
    (t.busy = true → s.busy = true → t.result = s.result ∧ t.countReg = s.countReg) ∧
    (t.fault = false → t.faultCause = s.faultCause ∧ t.faultInfo = s.faultInfo) ∧
    (i = .write → t.echoErr = s.echoErr)

/-- No micro-step of the Receiver changes an operand or configuration register, the transmit slot or
the registers of a WRITE (but `RX_ECHO`, which sets four of them up), and memory changes only in
`RX_CLEAR`, inside the buffer, and in `RX_COPY`, in the bytes of the frame copied
(10_state.md rules R23 to R27, 20_memory.md rule R67). -/
def Obligations.ReceiverFrame : Prop :=
  ∀ s t : State, running s = some .read → writeRuns s = false → s.mem.wf →
    exec .read s = .next t →
    (s.fsm ≠ .rxClear → s.fsm ≠ .rxCopy → ∀ a : Nat, t.mem.read a = s.mem.read a) ∧
    (s.fsm = .rxClear → ∀ a : Nat, (a < s.bufBase ∨ s.bufBase + s.bufSize ≤ a) →
      t.mem.read a = s.mem.read a) ∧
    (s.fsm = .rxCopy → ∀ a : Nat,
      (a < bufAddr s s.dp.count ∨ bufAddr s s.dp.count + s.dp.len.toNat ≤ a) →
      t.mem.read a = s.mem.read a) ∧
    t.params = s.params ∧ t.bufBase = s.bufBase ∧ t.bufSize = s.bufSize ∧
    t.timeout = s.timeout ∧ t.config = s.config ∧ t.ownId = s.ownId ∧ t.bcastId = s.bcastId ∧
    t.txId = s.txId ∧ t.lastOp = s.lastOp ∧ t.echoErr = s.echoErr ∧
    t.periph.tx = s.periph.tx ∧ t.periph.tec = s.periph.tec ∧ t.periph.bus = s.periph.bus ∧
    t.slotTypeOk = s.slotTypeOk ∧ t.agenda = s.agenda ∧ t.refrain = s.refrain ∧
    t.readData = s.readData ∧
    t.bufData = s.bufData ∧ t.draws = s.draws ∧
    t.dp.txBudget = s.dp.txBudget ∧ t.dp.txOff = s.dp.txOff ∧
    t.dp.chunkLen = s.dp.chunkLen ∧ t.dp.chunk = s.dp.chunk ∧ t.dp.errSnap = s.dp.errSnap ∧
    (s.fsm ≠ .rxEcho → t.dp = { s.dp with
      count := t.dp.count, rxBudget := t.dp.rxBudget, produced := t.dp.produced,
      len := t.dp.len }) ∧
    (s.fsm ≠ .rxFilter → s.fsm ≠ .rxRelease → t.periph.slots = s.periph.slots) ∧
    (∀ j : Nat, j ≠ s.cursor → t.periph.slots[j]? = s.periph.slots[j]?) ∧
    (t.busy = true → s.busy = true → t.result = s.result ∧ t.countReg = s.countReg) ∧
    (t.fault = false → t.faultCause = s.faultCause ∧ t.faultInfo = s.faultInfo)

/-! ## Faults and reset -/

/-- There is no return from a fault but `RESET` (60_exceptions.md rule R207): every other turn
leaves the fault, its cause and its value, host writes have no effect, host reads still work, and a
misshapen access changes nothing. -/
def Obligations.FaultIsLeftOnlyByReset : Prop :=
  (∀ s t : State, s.fault = true → s.fsm = .fault → step s = .next t →
    nextTurn s ≠ .reset →
    t.fault = true ∧ t.fsm = .fault ∧ t.faultCause = s.faultCause ∧ t.faultInfo = s.faultInfo) ∧
  (∀ (s : State) (rest : List Turn) (offset : Nat) (w : Word), fits s = true →
    s.fault = true → s.fsm = .fault → offset % 4 = 0 →
    (s.agenda = .host (.regWrite (s.params.regBase + offset) 4 w) :: rest →
      step s = .next { s with agenda := rest }) ∧
    (s.agenda = .host (.regRead (s.params.regBase + offset) 4) :: rest →
      step s = .next { s with agenda := rest, readData := readReg offset s })) ∧
  (∀ (s : State) (rest : List Turn) (offset width : Nat) (w : Word), fits s = true →
    s.fault = true → s.fsm = .fault → s.busy = false → s.irqMask = false →
    (width ≠ 4 ∨ offset % 4 ≠ 0) →
    (s.agenda = .host (.regWrite (s.params.regBase + offset) width w) :: rest ∨
      s.agenda = .host (.regRead (s.params.regBase + offset) width) :: rest) →
    step s = .next { s with agenda := rest }) ∧
  (∀ (s : State) (rest : List Turn), fits s = true → s.agenda = .reset :: rest →
    ∃ t : State, step s = .next t ∧ t.fault = false ∧ t.fsm = .idle) ∧
  ∀ s : State, fits s = true → s.fault = true → s.fsm = .fault → nextTurn s = .block →
    step s = .next (popTurn s)

/-- Taking a fault: the first fault's cause and value are recorded, a later one changes neither, the
block stops, and nothing else changes (60_exceptions.md rule R206). -/
def Obligations.FaultEntryKeepsTheFirstCause : Prop :=
  ∀ (s : State) (c : FaultCause) (n : Nat),
    (s.fault = false → raiseFault s c n = faulted s c (BitVec.ofNat 32 n)) ∧
    (s.fault = true → raiseFault s c n =
      { s with busy := false, irqMask := false, fsm := .fault })

/-- `RESET` (70_reset_and_hazards.md rule R230): every host-visible register takes its value of
10_state.md rule R40, which reads as 0 at every offset, nothing is called, and neither the
peripheral nor the buffer memory is reached. That the internal registers take free values, and that
`draws` counts them, is the model's choice (DESIGN CHOICE, log entry 4). No rule reads what they hold
before a command writes it (rules R27 and R40): whatever an idle block's internal registers hold, every
run goes on alike in everything else. -/
def Obligations.ResetLeavesTheResetValues : Prop :=
  (∀ (s : State) (rest : List Turn), fits s = true → s.agenda = .reset :: rest →
    ∃ t : State, step s = .next t ∧ (∀ offset : Nat, readReg offset t = 0) ∧
      ∃ d : Datapath, t =
        { s with
          agenda := rest, busy := false, fault := false, echoErr := false, result := .none
          lastOp := none, fsm := .idle, bufBase := 0, bufSize := 0, timeout := 0, countReg := 0
          config := 0, ownId := 0, bcastId := 0, txId := 0, cursor := 0, faultCause := .none
          faultInfo := 0, irqMask := false, dp := d, draws := s.draws + 1 }) ∧
  ∀ (k : Nat) (s t : State) (d : Datapath), ready s → run k s = .next t →
    ∃ e : Datapath, run k { s with dp := d } = .next { t with dp := e }

/-! ## The environment and the host beside the block -/

/-- The environment's moves and no others (10_state.md rule R34): a frame of any identifier, length and
lanes arrives in any empty slot, the busy transmit slot frees, the error counter takes any value of
its width, the bus state moves but for leaving `BUS_OFF`; nothing else changes, and an arrival in a
full slot or in one that does not exist is no move. The last clause is none of the laws E1 to E5: that
the slot-type input is the environment's to move, while no WRITE runs, is the model's choice
(DEDUCED, log entry 11, from rule R33 and 93_implementation_defined.md item A5). -/
def Obligations.EnvironmentMovesAsItsLawsAllow : Prop :=
  ∀ (s : State) (rest : List Turn), fits s = true →
    (∀ (i : Nat) (id : FrameId) (len : FrameLen) (lanes : Lanes),
      s.agenda = .env (.arrive i id len lanes) :: rest → s.params.nRx ≤ i →
      step s = .refused .environmentLaw) ∧
    (∀ (i : Nat) (id : FrameId) (len : FrameLen) (lanes : Lanes) (slot : RxSlot),
      s.agenda = .env (.arrive i id len lanes) :: rest → s.periph.slots[i]? = some slot →
      (slot.full = true → step s = .refused .environmentLaw) ∧
      (slot.full = false → step s = .next
        { s with agenda := rest, periph := { s.periph with
          slots := s.periph.slots.set i ⟨true, id, len, lanes⟩ } })) ∧
    (s.agenda = .env .txFree :: rest →
      (s.periph.tx.busy = false → step s = .refused .environmentLaw) ∧
      (s.periph.tx.busy = true → step s = .next
        { s with agenda := rest, periph := { s.periph with
          tx := { s.periph.tx with busy := false } } })) ∧
    (∀ v : Nat, s.agenda = .env (.tec v) :: rest →
      (v < 2 ^ s.params.tecW → step s = .next
        { s with agenda := rest, periph := { s.periph with tec := v } }) ∧
      (2 ^ s.params.tecW ≤ v → step s = .refused .environmentLaw)) ∧
    (∀ b : Bus, s.agenda = .env (.bus b) :: rest →
      (s.periph.bus ≠ .busOff ∨ b = .busOff → step s = .next
        { s with agenda := rest, periph := { s.periph with bus := b } }) ∧
      (s.periph.bus = .busOff → b ≠ .busOff → step s = .refused .environmentLaw)) ∧
    ∀ ok : Bool, s.agenda = .env (.slotType ok) :: rest →
      (writeRuns s = true → step s = .refused .environmentLaw) ∧
      (writeRuns s = false → step s = .next { s with agenda := rest, slotTypeOk := ok })

/-- A full receive slot keeps its frame until the block releases it or the host resets the
peripheral (10_state.md rule R34, law E2), whoever moves. -/
def Obligations.FullSlotIsStableUntilReleased : Prop :=
  ∀ (s t : State) (i : Nat) (slot : RxSlot), s.periph.slots[i]? = some slot →
    slot.full = true → step s = .next t →
    t.periph.slots[i]? = some slot ∨
    (t.periph.slots[i]? = some { slot with full := false } ∧ i = s.cursor ∧
      (s.fsm = .rxFilter ∨ s.fsm = .rxRelease) ∧ t.calls.head? = some (.rxRelease i)) ∨
    ∃ p : Peripheral, nextTurn s = .host (.periphReset p) ∧ t.periph = p

/-- `BUS_OFF` stays until the host resets the peripheral, which releases it (10_state.md rule R34,
law E5; 93_implementation_defined.md item F9). -/
def Obligations.BusOffIsStickyUntilPeripheralReset : Prop :=
  ∀ s t : State, s.periph.bus = .busOff → step s = .next t →
    t.periph.bus = .busOff ∨
    ∃ p : Peripheral, nextTurn s = .host (.periphReset p) ∧ t.periph = p ∧
      p.bus ≠ .busOff ∧ s.busy = false

/-- Only `txSend` makes the transmit slot busy (10_state.md rule R34, law E3), and only the
environment or a host reset of the peripheral frees it. -/
def Obligations.OnlyTheTriggerOccupiesTheSlot : Prop :=
  ∀ s t : State, step s = .next t →
    (∀ p : Peripheral, nextTurn s ≠ .host (.periphReset p)) →
    (s.periph.tx.busy = false → t.periph.tx.busy = true → s.fsm = .txTrigger) ∧
    (s.periph.tx.busy = true → t.periph.tx.busy = false →
      nextTurn s = .env .txFree)

/-- The host's calls of the peripheral's `reset()`, `start()` and `stop()` change no block register, and
a host may make them only while `BUSY = 0` (70_reset_and_hazards.md rule R233). A reset leaves any
`N_RX` slots, any error count of its width and any bus state but `BUS_OFF`; that `start()` and
`stop()` change nothing the interface shows is the model's choice (DEDUCED, log entries 12 and 13). -/
def Obligations.PeripheralResetKeepsTheBlock : Prop :=
  ∀ (s : State) (rest : List Turn), fits s = true →
    (∀ p : Peripheral, s.agenda = .host (.periphReset p) :: rest →
      (s.busy = true → step s = .refused .hostDuty) ∧
      (s.busy = false → p.slots.length = s.params.nRx → p.tec < 2 ^ s.params.tecW →
        p.bus ≠ .busOff → step s = .next { s with agenda := rest, periph := p }) ∧
      (s.busy = false → p.bus = .busOff → step s = .refused .environmentLaw)) ∧
    (s.agenda = .host .periphStart :: rest ∨ s.agenda = .host .periphStop :: rest →
      (s.busy = true → step s = .refused .hostDuty) ∧
      (s.busy = false → step s = .next { s with agenda := rest }))

/-- The host reads and writes the buffer memory one byte at a time while `BUSY = 0`, a read returns the
byte last written there and no other byte changes (20_memory.md rules R62 and R70). While `BUSY = 1`
the model gives the host no such move at any address of the buffer memory, where the rules name the
buffer `buf[0..BUF_SIZE-1]` alone: the model's choice (DESIGN CHOICE, log entry 25). -/
def Obligations.HostTouchesTheBufferWhileIdle : Prop :=
  ∀ (s : State) (rest : List Turn) (a : Nat) (v : Byte), fits s = true → s.mem.wf →
    (s.busy = true →
      s.agenda = .host (.bufWrite a v) :: rest ∨ s.agenda = .host (.bufRead a) :: rest →
      step s = .refused .hostDuty) ∧
    (s.busy = false → a < 2 ^ s.params.addrW →
      (s.agenda = .host (.bufRead a) :: rest →
        step s = .next { s with agenda := rest, bufData := s.mem.read a }) ∧
      (s.agenda = .host (.bufWrite a v) :: rest →
        ∃ m : Memory, step s = .next { s with agenda := rest, mem := m } ∧ m.wf ∧
          ∀ x : Nat, m.read x = if x = a then v else s.mem.read x))

/-! ## Invariants -/

/-- The invariants hold at reset. The parameters, the internal registers and the peripheral of
`State.reset` are the model's choice (log entries 2, 3, 6 and 7). -/
def Obligations.ResetStateIsConsistent : Prop :=
  Consistent State.reset ∧ NoPacketYet State.reset

/-- Every step of every agent keeps the invariant: register widths, budgets, control state, what
holds in each state of the block's machine, and the memory's canonical form. -/
def Obligations.EveryStepKeepsConsistent : Prop :=
  ∀ s t : State, Consistent s → step s = .next t → Consistent t

/-- From a consistent state no run ever meets a fault of the machine: the block makes no access to
an address, a slot or a lane that does not exist (20_memory.md rules R61, R63; 42_datapath.md
rule R174). -/
def Obligations.ConsistentRunNeverFaults : Prop :=
  ∀ (k : Nat) (s : State) (r : Machine.Fault), Consistent s → run k s ≠ .fault r

/-- Every step keeps the memory's canonical form, from every state. -/
def Obligations.EveryStepKeepsMemoryCanonical : Prop :=
  ∀ s t : State, s.mem.wf → step s = .next t → t.mem.wf

/-- While a READ scans, what it received so far is no complete packet: every step keeps this, so
the last check never holds and a READ that reaches it ends with `TIMEOUT`
(41_receive.md rule R154). -/
def Obligations.FinalCheckNeverHolds : Prop :=
  (∀ s t : State, Consistent s → NoPacketYet s → step s = .next t → NoPacketYet t) ∧
  ∀ s : State, Consistent s → NoPacketYet s → s.fsm = .rxFinal →
    exec .read s = .next (ended s .timeout s.dp.count)

/-- `txSend` is only ever called with `IRQ_MASK` asserted, and no state between two steps has it
asserted (40_transmit.md rule R126, 60_exceptions.md rule R210). -/
def Obligations.SendIsAlwaysMasked : Prop :=
  ∀ s t : State, s.irqMask = false →
    (∀ id len data m, Call.txSend id len data m ∈ s.calls → m = true) → step s = .next t →
    t.irqMask = false ∧ ∀ id len data m, Call.txSend id len data m ∈ t.calls → m = true

/-- The parameters never change, and a state whose parameters break 00_scope.md rule R8 is
refused. -/
def Obligations.ParametersAreFixedAndChecked : Prop :=
  (∀ s t : State, step s = .next t → t.params = s.params) ∧
  ∀ s : State, (s.params.nRx = 0 ∨ s.params.pollStep = 0 ∨ s.params.sizeW < 4 ∨
    s.params.txSlots ≤ s.params.txSlot) → step s = .refused .parameters

/-- The cursor moves only in the scan (10_state.md rule R26, 41_receive.md rule R143): an empty slot, a
rejected frame and an accepted frame that does not end the READ advance it by exactly 1, the frame
that completes the packet as `ADVANCE_ON_COMPLETE` says; the pass top wraps it from `N_RX` to 0; and
nothing else but `RESET` changes it. -/
def Obligations.CursorMovesOnlyInTheScan : Prop :=
  ∀ s t : State, Consistent s → step s = .next t →
    (nextTurn s ≠ .reset →
      t.cursor = s.cursor ∨
      (t.cursor = s.cursor + 1 ∧ s.cursor < s.params.nRx ∧
        (s.fsm = .rxTest ∨ s.fsm = .rxFilter ∨ s.fsm = .rxAdvance)) ∨
      (t.cursor = 0 ∧ s.cursor = s.params.nRx ∧ s.fsm = .rxPassTop)) ∧
    (nextTurn s = .block →
      (∀ slot : RxSlot, s.periph.slots[s.cursor]? = some slot →
        (s.fsm = .rxTest →
          t.cursor = if slot.full = true then s.cursor else s.cursor + 1) ∧
        (s.fsm = .rxFilter →
          t.cursor = if Accepts s slot.id then s.cursor else s.cursor + 1)) ∧
      (s.fsm = .rxAdvance →
        t.cursor = if t.busy = true ∨ s.params.advanceOnComplete = true then s.cursor + 1
          else s.cursor) ∧
      (s.fsm = .rxPassTop → 0 ≤ s.dp.rxBudget → s.cursor = s.params.nRx → t.cursor = 0))

/-! ## Datapath units -/

/-- The lane map, by its formula, by bits and by its table (42_datapath.md rule R170). -/
def Obligations.LaneMapAsTabled : Prop :=
  (∀ k : Nat, swap k = 4 * (k / 4) + (3 - k % 4)) ∧
  (∀ k : BitVec 3, BitVec.ofNat 3 (swap k.toNat) =
    BitVec.ofBool (k.getLsbD 2) ++ BitVec.ofBool (!k.getLsbD 1) ++
      BitVec.ofBool (!k.getLsbD 0)) ∧
  (List.range 8).map swap = [3, 2, 1, 0, 7, 6, 5, 4]

/-- What the spec derives of the swap unit: the lane map is its own inverse and keeps each group of
four (42_datapath.md section 1, "Properties of `swap`"); the two readings of a partly present group
agree on frames of 0, 4 and 8 bytes; and under the lane law E6 and `FIXED_LANES` the corrected
payload is the wire payload (41_receive.md section 4, property P1). -/
def Obligations.SwapUndoesTheLaneLaw : Prop :=
  (∀ k : Nat, swap (swap k) = k ∧ (k < 4 ↔ swap k < 4) ∧ (k < 8 ↔ swap k < 8)) ∧
  (∀ (p q : Params) (lanes : Lanes) (len k : Nat), p.swapPartial = .fixedLanes →
    q.swapPartial = .presentOnly → len = 0 ∨ len = 4 ∨ len = 8 → k < len →
    payloadByte p lanes len k = payloadByte q lanes len k) ∧
  ∀ (p : Params) (lanes : Lanes) (w : List Byte), p.swapPartial = .fixedLanes →
    laneLaw lanes w →
    (List.range w.length).map (fun k => payloadByte p lanes w.length k) = w

/-- `Complete` answers inside the buffer memory, and it holds exactly on a framed packet
(42_datapath.md rule R174). -/
def Obligations.CompleteRecognisesExactlyThePacket : Prop :=
  ∀ (s : State) (n : Nat), PacketReadable s n →
    (complete s n = some true ↔ IsPacket s n) ∧ (complete s n = some false ↔ ¬ IsPacket s n)

/-- The address filter (42_datapath.md rule R175). -/
def Obligations.FilterAcceptsOwnAndBroadcast : Prop :=
  ∀ (s : State) (id : FrameId), accept s id = true ↔ Accepts s id

/-- The chunker (42_datapath.md rule R176): chunk lengths are 8 but for the last, which is 1 to 8,
`ceil(size / 8)` chunks, which together are the buffer in order. -/
def Obligations.ChunksCoverTheBuffer : Prop :=
  ∀ (m : Memory) (id : FrameId) (base size : Nat), 0 < size →
    (∀ off : Nat, off < size → chunkLength size off = min 8 (size - off) ∧
      1 ≤ chunkLength size off) ∧
    (∀ k : Nat, k + 1 < chunkCount size → chunkLength size (8 * k) = 8) ∧
    1 ≤ chunkLength size (8 * (chunkCount size - 1)) ∧
    chunkLength size (8 * (chunkCount size - 1)) = size - 8 * (chunkCount size - 1) ∧
    chunkLength size (8 * (chunkCount size - 1)) ≤ 8 ∧
    (chunkFrames m id base size 0 (chunkCount size)).length = chunkCount size ∧
    ((chunkFrames m id base size 0 (chunkCount size)).flatMap fun f => f.2.2) =
      bytesAt m base size

/-! ## Whole commands -/

/-- A WRITE of size 0 ends at once with the empty status and no call (40_transmit.md rule R121,
60_exceptions.md rule R204). -/
def Obligations.EmptyWriteEndsAtOnce : Prop :=
  ∀ (s : State) (rest : List Turn), fits s = true → ready s → s.bufSize = 0 →
    s.slotTypeOk = true → s.params.writeEmptyStatus = .empty →
    s.agenda = cmdWrite s.params writeWord :: .block :: rest →
    ∃ t : State, run 2 s = .next t ∧ ready t ∧ t.result = .empty ∧ t.countReg = 0 ∧
      t.calls = s.calls ∧ t.mem = s.mem ∧ t.periph = s.periph ∧ t.cursor = s.cursor ∧
      t.echoErr = false

/-- A WRITE whose transmit slot never frees ends with `(0, TIMEOUT)` after exactly
`floor(10 T / POLL_STEP) + 1` checks of the slot, as many `Delay` calls when `T ≠ 0` and none when
`T = 0`, and nothing sent (40_transmit.md section 4, "Suppose the TX slot never frees"). `COUNT` is
the value the spec's derivation gives; a host must not read it as valid data. The agenda holds the
`CMD` write alone, so nothing but the block moves afterwards: a quiet environment (DESIGN CHOICE,
log entry 1), which neither frees the slot nor moves the error counter. -/
def Obligations.WriteTimesOutOnABusySlot : Prop :=
  ∀ s : State, fits s = true → ready s → s.slotTypeOk = true → 0 < s.bufSize →
    s.bufBase + s.bufSize ≤ 2 ^ s.params.addrW → s.periph.tx.busy = true →
    s.agenda = [cmdWrite s.params writeWord] → s.refrain = [] →
    ∃ t : State, run (10 * s.timeout / s.params.pollStep + 4) s = .next t ∧ ready t ∧
      t.result = .timeout ∧ t.countReg = 0 ∧
      txFullCalls t = txFullCalls s + (10 * s.timeout / s.params.pollStep + 1) ∧
      delays t = delays s +
        (if s.timeout = 0 then 0 else 10 * s.timeout / s.params.pollStep + 1) ∧
      sentFrames t = sentFrames s ∧ t.mem = s.mem ∧ t.cursor = s.cursor

/-- A READ that meets no frame ends with `TIMEOUT`, `COUNT = 0` and the cursor at `N_RX`, after
exactly `floor(10 T / POLL_STEP) + 1` `Delay` calls (41_receive.md section 4, property P7). The
agenda holds the `CMD` write alone, so nothing but the block moves afterwards: a quiet environment
(DESIGN CHOICE, log entry 1), in which no frame arrives. -/
def Obligations.ReadTimesOutWithoutTraffic : Prop :=
  ∀ s : State, fits s = true → ready s → 8 ≤ s.bufSize → s.mem.wf →
    s.bufBase + s.bufSize ≤ 2 ^ s.params.addrW → s.cursor ≤ s.params.nRx →
    s.periph.bus ≠ .busOff → (∀ slot ∈ s.periph.slots, slot.full = false) →
    s.agenda = [cmdWrite s.params readWord] → s.refrain = [] →
    ∃ (k : Nat) (t : State), run k s = .next t ∧ ready t ∧ t.result = .timeout ∧
      t.countReg = 0 ∧ t.cursor = s.params.nRx ∧
      delays t = delays s + (10 * s.timeout / s.params.pollStep + 1) ∧
      t.periph = s.periph

/-- A WRITE whose slot frees after each trigger sends exactly the chunks of the buffer, in order, each
once, and ends with `OK` and `COUNT = size` (40_transmit.md rules R120, R122; 42_datapath.md
rule R176). It speaks of the one interleaving its agenda names (log entry 1): the slot frees right
after each trigger and nothing else moves beside the block. -/
def Obligations.WriteSendsEveryChunkInOrder : Prop :=
  ∀ (s : State) (rest : List Turn), fits s = true → ready s → s.slotTypeOk = true →
    0 < s.bufSize → s.bufSize < 2 ^ s.params.sizeW →
    s.bufBase + s.bufSize ≤ 2 ^ s.params.addrW → s.periph.tx.busy = false →
    s.periph.bus = .active →
    s.agenda = cmdWrite s.params writeWord :: .block :: .block ::
      (promptTurns (chunkCount s.bufSize) ++ .block :: rest) →
    ∃ t : State, run (5 * chunkCount s.bufSize + 4) s = .next t ∧ ready t ∧ t.result = .ok ∧
      t.countReg = s.bufSize ∧ t.agenda = rest ∧ t.mem = s.mem ∧ t.cursor = s.cursor ∧
      sentFrames t = sentFrames s ++
        chunkFrames s.mem s.txId s.bufBase s.bufSize 0 (chunkCount s.bufSize)

/-- A READ reassembles a packet of any length whose frames lie in successive slots from the cursor on,
8 bytes in each but the last, under the lane law E6: it ends with `OK`, `COUNT` the packet's length
and the packet in the buffer (41_receive.md rules R140, R157, R158). The frames are there before the
READ starts, the echo is off, `ADVANCE_ON_COMPLETE` is set and the packet does not cross the cursor's
wrap. The agenda holds the `CMD` write alone, so nothing but the block moves afterwards: a quiet
environment (DESIGN CHOICE, log entry 1). -/
def Obligations.ReadReassemblesThePacket : Prop :=
  ∀ (s : State) (w : List Byte), fits s = true → ready s → s.mem.wf →
    s.params.swapPartial = .fixedLanes → s.params.advanceOnComplete = true →
    s.config.getLsbD 2 = false → s.bufSize < 2 ^ s.params.sizeW → 8 ≤ s.bufSize →
    s.bufBase + s.bufSize ≤ 2 ^ s.params.addrW → w.length ≤ s.bufSize →
    s.periph.bus = .active →
    w.length = 7 + ((w.getD 2 0).toNat + 256 * (w.getD 3 0).toNat) → w.getD 0 0 = 0x01 →
    w.getD (w.length - 1) 0 = 0x17 →
    s.cursor + chunkCount w.length ≤ s.params.nRx →
    (∀ k < chunkCount w.length, ∃ slot : RxSlot,
      s.periph.slots[s.cursor + k]? = some slot ∧ slot.full = true ∧ Accepts s slot.id ∧
      slot.len.toNat = chunkLength w.length (8 * k) ∧
      laneLaw slot.lanes ((w.drop (8 * k)).take 8)) →
    s.agenda = [cmdWrite s.params readWord] → s.refrain = [] →
    ∃ t : State, run (6 * chunkCount w.length + 4) s = .next t ∧ ready t ∧ t.result = .ok ∧
      t.countReg = w.length ∧ bytesAt t.mem s.bufBase w.length = w ∧
      t.cursor = s.cursor + chunkCount w.length ∧
      (∀ a : Nat, (a < s.bufBase ∨ s.bufBase + s.bufSize ≤ a) →
        t.mem.read a = s.mem.read a) ∧
      ∀ k < chunkCount w.length, (t.periph.slots[s.cursor + k]?).any (·.full) = false

/-- A WRITE past its start always ends, whatever the environment does: every micro-step of it ends
it or lowers the bound `writeFuel` (70_reset_and_hazards.md rule R240). A READ need not end
(41_receive.md rule R155, 93_implementation_defined.md item A6): an environment that delivers an
accepted empty frame in every pass keeps it running for ever, from `State.reset` on. That run rests on
the model's choices of log entries 1, 2, 3 and 6. -/
def Obligations.WriteAlwaysEndsAndAReadNeedNot : Prop :=
  (∀ (s t : State) (i : Instr), Consistent s → running s = some i → writeRuns s = true →
    s.fsm ≠ .txStart → exec i s = .next t →
    writeRuns t = false ∨ writeFuel t < writeFuel s) ∧
  ∀ k : Nat, ∃ t : State,
    run (endlessPrelude.length + k)
      { State.reset with agenda := endlessPrelude, refrain := endlessRefrain } = .next t ∧
    running t = some .read
end

