-- ==== Sys2Proof/Laws/State.lean ====
section
/-!
SUPPORT. One lemma for each field of State under each named update, true by definition and tagged
for simp, so that no later proof unfolds a record update.
-/

namespace Sys2Proof.Machine

/-! ## goto -/

@[simp] theorem goto_params (s : State) (f : Fsm) : (goto s f).params = s.params := rfl
@[simp] theorem goto_busy (s : State) (f : Fsm) : (goto s f).busy = s.busy := rfl
@[simp] theorem goto_fault (s : State) (f : Fsm) : (goto s f).fault = s.fault := rfl
@[simp] theorem goto_echoErr (s : State) (f : Fsm) : (goto s f).echoErr = s.echoErr := rfl
@[simp] theorem goto_result (s : State) (f : Fsm) : (goto s f).result = s.result := rfl
@[simp] theorem goto_lastOp (s : State) (f : Fsm) : (goto s f).lastOp = s.lastOp := rfl
@[simp] theorem goto_fsm (s : State) (f : Fsm) : (goto s f).fsm = f := rfl
@[simp] theorem goto_bufBase (s : State) (f : Fsm) : (goto s f).bufBase = s.bufBase := rfl
@[simp] theorem goto_bufSize (s : State) (f : Fsm) : (goto s f).bufSize = s.bufSize := rfl
@[simp] theorem goto_timeout (s : State) (f : Fsm) : (goto s f).timeout = s.timeout := rfl
@[simp] theorem goto_countReg (s : State) (f : Fsm) : (goto s f).countReg = s.countReg := rfl
@[simp] theorem goto_config (s : State) (f : Fsm) : (goto s f).config = s.config := rfl
@[simp] theorem goto_ownId (s : State) (f : Fsm) : (goto s f).ownId = s.ownId := rfl
@[simp] theorem goto_bcastId (s : State) (f : Fsm) : (goto s f).bcastId = s.bcastId := rfl
@[simp] theorem goto_txId (s : State) (f : Fsm) : (goto s f).txId = s.txId := rfl
@[simp] theorem goto_cursor (s : State) (f : Fsm) : (goto s f).cursor = s.cursor := rfl
@[simp] theorem goto_faultCause (s : State) (f : Fsm) : (goto s f).faultCause = s.faultCause := rfl
@[simp] theorem goto_faultInfo (s : State) (f : Fsm) : (goto s f).faultInfo = s.faultInfo := rfl
@[simp] theorem goto_irqMask (s : State) (f : Fsm) : (goto s f).irqMask = s.irqMask := rfl
@[simp] theorem goto_slotTypeOk (s : State) (f : Fsm) : (goto s f).slotTypeOk = s.slotTypeOk := rfl
@[simp] theorem goto_dp (s : State) (f : Fsm) : (goto s f).dp = s.dp := rfl
@[simp] theorem goto_periph (s : State) (f : Fsm) : (goto s f).periph = s.periph := rfl
@[simp] theorem goto_mem (s : State) (f : Fsm) : (goto s f).mem = s.mem := rfl
@[simp] theorem goto_agenda (s : State) (f : Fsm) : (goto s f).agenda = s.agenda := rfl
@[simp] theorem goto_refrain (s : State) (f : Fsm) : (goto s f).refrain = s.refrain := rfl
@[simp] theorem goto_calls (s : State) (f : Fsm) : (goto s f).calls = s.calls := rfl
@[simp] theorem goto_readData (s : State) (f : Fsm) : (goto s f).readData = s.readData := rfl
@[simp] theorem goto_bufData (s : State) (f : Fsm) : (goto s f).bufData = s.bufData := rfl
@[simp] theorem goto_draws (s : State) (f : Fsm) : (goto s f).draws = s.draws := rfl

/-! ## setDp -/

@[simp] theorem setDp_params (s : State) (d : Datapath) : (setDp s d).params = s.params := rfl
@[simp] theorem setDp_busy (s : State) (d : Datapath) : (setDp s d).busy = s.busy := rfl
@[simp] theorem setDp_fault (s : State) (d : Datapath) : (setDp s d).fault = s.fault := rfl
@[simp] theorem setDp_echoErr (s : State) (d : Datapath) : (setDp s d).echoErr = s.echoErr := rfl
@[simp] theorem setDp_result (s : State) (d : Datapath) : (setDp s d).result = s.result := rfl
@[simp] theorem setDp_lastOp (s : State) (d : Datapath) : (setDp s d).lastOp = s.lastOp := rfl
@[simp] theorem setDp_fsm (s : State) (d : Datapath) : (setDp s d).fsm = s.fsm := rfl
@[simp] theorem setDp_bufBase (s : State) (d : Datapath) : (setDp s d).bufBase = s.bufBase := rfl
@[simp] theorem setDp_bufSize (s : State) (d : Datapath) : (setDp s d).bufSize = s.bufSize := rfl
@[simp] theorem setDp_timeout (s : State) (d : Datapath) : (setDp s d).timeout = s.timeout := rfl
@[simp] theorem setDp_countReg (s : State) (d : Datapath) : (setDp s d).countReg = s.countReg := rfl
@[simp] theorem setDp_config (s : State) (d : Datapath) : (setDp s d).config = s.config := rfl
@[simp] theorem setDp_ownId (s : State) (d : Datapath) : (setDp s d).ownId = s.ownId := rfl
@[simp] theorem setDp_bcastId (s : State) (d : Datapath) : (setDp s d).bcastId = s.bcastId := rfl
@[simp] theorem setDp_txId (s : State) (d : Datapath) : (setDp s d).txId = s.txId := rfl
@[simp] theorem setDp_cursor (s : State) (d : Datapath) : (setDp s d).cursor = s.cursor := rfl
@[simp] theorem setDp_faultCause (s : State) (d : Datapath) :
    (setDp s d).faultCause = s.faultCause := rfl
@[simp] theorem setDp_faultInfo (s : State) (d : Datapath) :
    (setDp s d).faultInfo = s.faultInfo := rfl
@[simp] theorem setDp_irqMask (s : State) (d : Datapath) : (setDp s d).irqMask = s.irqMask := rfl
@[simp] theorem setDp_slotTypeOk (s : State) (d : Datapath) :
    (setDp s d).slotTypeOk = s.slotTypeOk := rfl
@[simp] theorem setDp_dp (s : State) (d : Datapath) : (setDp s d).dp = d := rfl
@[simp] theorem setDp_periph (s : State) (d : Datapath) : (setDp s d).periph = s.periph := rfl
@[simp] theorem setDp_mem (s : State) (d : Datapath) : (setDp s d).mem = s.mem := rfl
@[simp] theorem setDp_agenda (s : State) (d : Datapath) : (setDp s d).agenda = s.agenda := rfl
@[simp] theorem setDp_refrain (s : State) (d : Datapath) : (setDp s d).refrain = s.refrain := rfl
@[simp] theorem setDp_calls (s : State) (d : Datapath) : (setDp s d).calls = s.calls := rfl
@[simp] theorem setDp_readData (s : State) (d : Datapath) : (setDp s d).readData = s.readData := rfl
@[simp] theorem setDp_bufData (s : State) (d : Datapath) : (setDp s d).bufData = s.bufData := rfl
@[simp] theorem setDp_draws (s : State) (d : Datapath) : (setDp s d).draws = s.draws := rfl

/-! ## setCursor -/

@[simp] theorem setCursor_params (s : State) (v : Nat) : (setCursor s v).params = s.params := rfl
@[simp] theorem setCursor_busy (s : State) (v : Nat) : (setCursor s v).busy = s.busy := rfl
@[simp] theorem setCursor_fault (s : State) (v : Nat) : (setCursor s v).fault = s.fault := rfl
@[simp] theorem setCursor_echoErr (s : State) (v : Nat) : (setCursor s v).echoErr = s.echoErr := rfl
@[simp] theorem setCursor_result (s : State) (v : Nat) : (setCursor s v).result = s.result := rfl
@[simp] theorem setCursor_lastOp (s : State) (v : Nat) : (setCursor s v).lastOp = s.lastOp := rfl
@[simp] theorem setCursor_fsm (s : State) (v : Nat) : (setCursor s v).fsm = s.fsm := rfl
@[simp] theorem setCursor_bufBase (s : State) (v : Nat) : (setCursor s v).bufBase = s.bufBase := rfl
@[simp] theorem setCursor_bufSize (s : State) (v : Nat) : (setCursor s v).bufSize = s.bufSize := rfl
@[simp] theorem setCursor_timeout (s : State) (v : Nat) : (setCursor s v).timeout = s.timeout := rfl
@[simp] theorem setCursor_countReg (s : State) (v : Nat) :
    (setCursor s v).countReg = s.countReg := rfl
@[simp] theorem setCursor_config (s : State) (v : Nat) : (setCursor s v).config = s.config := rfl
@[simp] theorem setCursor_ownId (s : State) (v : Nat) : (setCursor s v).ownId = s.ownId := rfl
@[simp] theorem setCursor_bcastId (s : State) (v : Nat) : (setCursor s v).bcastId = s.bcastId := rfl
@[simp] theorem setCursor_txId (s : State) (v : Nat) : (setCursor s v).txId = s.txId := rfl
@[simp] theorem setCursor_cursor (s : State) (v : Nat) :
    (setCursor s v).cursor = cut (cursorWidth s.params) v := rfl
@[simp] theorem setCursor_faultCause (s : State) (v : Nat) :
    (setCursor s v).faultCause = s.faultCause := rfl
@[simp] theorem setCursor_faultInfo (s : State) (v : Nat) :
    (setCursor s v).faultInfo = s.faultInfo := rfl
@[simp] theorem setCursor_irqMask (s : State) (v : Nat) : (setCursor s v).irqMask = s.irqMask := rfl
@[simp] theorem setCursor_slotTypeOk (s : State) (v : Nat) :
    (setCursor s v).slotTypeOk = s.slotTypeOk := rfl
@[simp] theorem setCursor_dp (s : State) (v : Nat) : (setCursor s v).dp = s.dp := rfl
@[simp] theorem setCursor_periph (s : State) (v : Nat) : (setCursor s v).periph = s.periph := rfl
@[simp] theorem setCursor_mem (s : State) (v : Nat) : (setCursor s v).mem = s.mem := rfl
@[simp] theorem setCursor_agenda (s : State) (v : Nat) : (setCursor s v).agenda = s.agenda := rfl
@[simp] theorem setCursor_refrain (s : State) (v : Nat) : (setCursor s v).refrain = s.refrain := rfl
@[simp] theorem setCursor_calls (s : State) (v : Nat) : (setCursor s v).calls = s.calls := rfl
@[simp] theorem setCursor_readData (s : State) (v : Nat) :
    (setCursor s v).readData = s.readData := rfl
@[simp] theorem setCursor_bufData (s : State) (v : Nat) : (setCursor s v).bufData = s.bufData := rfl
@[simp] theorem setCursor_draws (s : State) (v : Nat) : (setCursor s v).draws = s.draws := rfl

/-! ## logCall -/

@[simp] theorem logCall_params (s : State) (c : Call) : (logCall s c).params = s.params := rfl
@[simp] theorem logCall_busy (s : State) (c : Call) : (logCall s c).busy = s.busy := rfl
@[simp] theorem logCall_fault (s : State) (c : Call) : (logCall s c).fault = s.fault := rfl
@[simp] theorem logCall_echoErr (s : State) (c : Call) : (logCall s c).echoErr = s.echoErr := rfl
@[simp] theorem logCall_result (s : State) (c : Call) : (logCall s c).result = s.result := rfl
@[simp] theorem logCall_lastOp (s : State) (c : Call) : (logCall s c).lastOp = s.lastOp := rfl
@[simp] theorem logCall_fsm (s : State) (c : Call) : (logCall s c).fsm = s.fsm := rfl
@[simp] theorem logCall_bufBase (s : State) (c : Call) : (logCall s c).bufBase = s.bufBase := rfl
@[simp] theorem logCall_bufSize (s : State) (c : Call) : (logCall s c).bufSize = s.bufSize := rfl
@[simp] theorem logCall_timeout (s : State) (c : Call) : (logCall s c).timeout = s.timeout := rfl
@[simp] theorem logCall_countReg (s : State) (c : Call) : (logCall s c).countReg = s.countReg := rfl
@[simp] theorem logCall_config (s : State) (c : Call) : (logCall s c).config = s.config := rfl
@[simp] theorem logCall_ownId (s : State) (c : Call) : (logCall s c).ownId = s.ownId := rfl
@[simp] theorem logCall_bcastId (s : State) (c : Call) : (logCall s c).bcastId = s.bcastId := rfl
@[simp] theorem logCall_txId (s : State) (c : Call) : (logCall s c).txId = s.txId := rfl
@[simp] theorem logCall_cursor (s : State) (c : Call) : (logCall s c).cursor = s.cursor := rfl
@[simp] theorem logCall_faultCause (s : State) (c : Call) :
    (logCall s c).faultCause = s.faultCause := rfl
@[simp] theorem logCall_faultInfo (s : State) (c : Call) :
    (logCall s c).faultInfo = s.faultInfo := rfl
@[simp] theorem logCall_irqMask (s : State) (c : Call) : (logCall s c).irqMask = s.irqMask := rfl
@[simp] theorem logCall_slotTypeOk (s : State) (c : Call) :
    (logCall s c).slotTypeOk = s.slotTypeOk := rfl
@[simp] theorem logCall_dp (s : State) (c : Call) : (logCall s c).dp = s.dp := rfl
@[simp] theorem logCall_periph (s : State) (c : Call) : (logCall s c).periph = s.periph := rfl
@[simp] theorem logCall_mem (s : State) (c : Call) : (logCall s c).mem = s.mem := rfl
@[simp] theorem logCall_agenda (s : State) (c : Call) : (logCall s c).agenda = s.agenda := rfl
@[simp] theorem logCall_refrain (s : State) (c : Call) : (logCall s c).refrain = s.refrain := rfl
@[simp] theorem logCall_calls (s : State) (c : Call) : (logCall s c).calls = c :: s.calls := rfl
@[simp] theorem logCall_readData (s : State) (c : Call) : (logCall s c).readData = s.readData := rfl
@[simp] theorem logCall_bufData (s : State) (c : Call) : (logCall s c).bufData = s.bufData := rfl
@[simp] theorem logCall_draws (s : State) (c : Call) : (logCall s c).draws = s.draws := rfl

/-! ## delay -/

@[simp] theorem delay_params (s : State) (n : Nat) : (delay s n).params = s.params := rfl
@[simp] theorem delay_busy (s : State) (n : Nat) : (delay s n).busy = s.busy := rfl
@[simp] theorem delay_fault (s : State) (n : Nat) : (delay s n).fault = s.fault := rfl
@[simp] theorem delay_echoErr (s : State) (n : Nat) : (delay s n).echoErr = s.echoErr := rfl
@[simp] theorem delay_result (s : State) (n : Nat) : (delay s n).result = s.result := rfl
@[simp] theorem delay_lastOp (s : State) (n : Nat) : (delay s n).lastOp = s.lastOp := rfl
@[simp] theorem delay_fsm (s : State) (n : Nat) : (delay s n).fsm = s.fsm := rfl
@[simp] theorem delay_bufBase (s : State) (n : Nat) : (delay s n).bufBase = s.bufBase := rfl
@[simp] theorem delay_bufSize (s : State) (n : Nat) : (delay s n).bufSize = s.bufSize := rfl
@[simp] theorem delay_timeout (s : State) (n : Nat) : (delay s n).timeout = s.timeout := rfl
@[simp] theorem delay_countReg (s : State) (n : Nat) : (delay s n).countReg = s.countReg := rfl
@[simp] theorem delay_config (s : State) (n : Nat) : (delay s n).config = s.config := rfl
@[simp] theorem delay_ownId (s : State) (n : Nat) : (delay s n).ownId = s.ownId := rfl
@[simp] theorem delay_bcastId (s : State) (n : Nat) : (delay s n).bcastId = s.bcastId := rfl
@[simp] theorem delay_txId (s : State) (n : Nat) : (delay s n).txId = s.txId := rfl
@[simp] theorem delay_cursor (s : State) (n : Nat) : (delay s n).cursor = s.cursor := rfl
@[simp] theorem delay_faultCause (s : State) (n : Nat) :
    (delay s n).faultCause = s.faultCause := rfl
@[simp] theorem delay_faultInfo (s : State) (n : Nat) : (delay s n).faultInfo = s.faultInfo := rfl
@[simp] theorem delay_irqMask (s : State) (n : Nat) : (delay s n).irqMask = s.irqMask := rfl
@[simp] theorem delay_slotTypeOk (s : State) (n : Nat) :
    (delay s n).slotTypeOk = s.slotTypeOk := rfl
@[simp] theorem delay_dp (s : State) (n : Nat) : (delay s n).dp = s.dp := rfl
@[simp] theorem delay_periph (s : State) (n : Nat) : (delay s n).periph = s.periph := rfl
@[simp] theorem delay_mem (s : State) (n : Nat) : (delay s n).mem = s.mem := rfl
@[simp] theorem delay_agenda (s : State) (n : Nat) : (delay s n).agenda = s.agenda := rfl
@[simp] theorem delay_refrain (s : State) (n : Nat) : (delay s n).refrain = s.refrain := rfl
@[simp] theorem delay_calls (s : State) (n : Nat) : (delay s n).calls = .delay n :: s.calls := rfl
@[simp] theorem delay_readData (s : State) (n : Nat) : (delay s n).readData = s.readData := rfl
@[simp] theorem delay_bufData (s : State) (n : Nat) : (delay s n).bufData = s.bufData := rfl
@[simp] theorem delay_draws (s : State) (n : Nat) : (delay s n).draws = s.draws := rfl

/-! ## rxRelease -/

@[simp] theorem rxRelease_params (s : State) (i : Nat) : (rxRelease s i).params = s.params := rfl
@[simp] theorem rxRelease_busy (s : State) (i : Nat) : (rxRelease s i).busy = s.busy := rfl
@[simp] theorem rxRelease_fault (s : State) (i : Nat) : (rxRelease s i).fault = s.fault := rfl
@[simp] theorem rxRelease_echoErr (s : State) (i : Nat) : (rxRelease s i).echoErr = s.echoErr := rfl
@[simp] theorem rxRelease_result (s : State) (i : Nat) : (rxRelease s i).result = s.result := rfl
@[simp] theorem rxRelease_lastOp (s : State) (i : Nat) : (rxRelease s i).lastOp = s.lastOp := rfl
@[simp] theorem rxRelease_fsm (s : State) (i : Nat) : (rxRelease s i).fsm = s.fsm := rfl
@[simp] theorem rxRelease_bufBase (s : State) (i : Nat) : (rxRelease s i).bufBase = s.bufBase := rfl
@[simp] theorem rxRelease_bufSize (s : State) (i : Nat) : (rxRelease s i).bufSize = s.bufSize := rfl
@[simp] theorem rxRelease_timeout (s : State) (i : Nat) : (rxRelease s i).timeout = s.timeout := rfl
@[simp] theorem rxRelease_countReg (s : State) (i : Nat) :
    (rxRelease s i).countReg = s.countReg := rfl
@[simp] theorem rxRelease_config (s : State) (i : Nat) : (rxRelease s i).config = s.config := rfl
@[simp] theorem rxRelease_ownId (s : State) (i : Nat) : (rxRelease s i).ownId = s.ownId := rfl
@[simp] theorem rxRelease_bcastId (s : State) (i : Nat) : (rxRelease s i).bcastId = s.bcastId := rfl
@[simp] theorem rxRelease_txId (s : State) (i : Nat) : (rxRelease s i).txId = s.txId := rfl
@[simp] theorem rxRelease_cursor (s : State) (i : Nat) : (rxRelease s i).cursor = s.cursor := rfl
@[simp] theorem rxRelease_faultCause (s : State) (i : Nat) :
    (rxRelease s i).faultCause = s.faultCause := rfl
@[simp] theorem rxRelease_faultInfo (s : State) (i : Nat) :
    (rxRelease s i).faultInfo = s.faultInfo := rfl
@[simp] theorem rxRelease_irqMask (s : State) (i : Nat) : (rxRelease s i).irqMask = s.irqMask := rfl
@[simp] theorem rxRelease_slotTypeOk (s : State) (i : Nat) :
    (rxRelease s i).slotTypeOk = s.slotTypeOk := rfl
@[simp] theorem rxRelease_dp (s : State) (i : Nat) : (rxRelease s i).dp = s.dp := rfl
@[simp] theorem rxRelease_periph (s : State) (i : Nat) :
    (rxRelease s i).periph = { s.periph with slots := s.periph.slots.modify i (fun sl => { sl with full := false }) } := rfl
@[simp] theorem rxRelease_mem (s : State) (i : Nat) : (rxRelease s i).mem = s.mem := rfl
@[simp] theorem rxRelease_agenda (s : State) (i : Nat) : (rxRelease s i).agenda = s.agenda := rfl
@[simp] theorem rxRelease_refrain (s : State) (i : Nat) : (rxRelease s i).refrain = s.refrain := rfl
@[simp] theorem rxRelease_calls (s : State) (i : Nat) :
    (rxRelease s i).calls = .rxRelease i :: s.calls := rfl
@[simp] theorem rxRelease_readData (s : State) (i : Nat) :
    (rxRelease s i).readData = s.readData := rfl
@[simp] theorem rxRelease_bufData (s : State) (i : Nat) : (rxRelease s i).bufData = s.bufData := rfl
@[simp] theorem rxRelease_draws (s : State) (i : Nat) : (rxRelease s i).draws = s.draws := rfl

/-! ## txSend -/

@[simp] theorem txSend_params (s : State) (id : FrameId) (len : FrameLen) (data : List Byte) :
    (txSend s id len data).params = s.params := rfl
@[simp] theorem txSend_busy (s : State) (id : FrameId) (len : FrameLen) (data : List Byte) :
    (txSend s id len data).busy = s.busy := rfl
@[simp] theorem txSend_fault (s : State) (id : FrameId) (len : FrameLen) (data : List Byte) :
    (txSend s id len data).fault = s.fault := rfl
@[simp] theorem txSend_echoErr (s : State) (id : FrameId) (len : FrameLen) (data : List Byte) :
    (txSend s id len data).echoErr = s.echoErr := rfl
@[simp] theorem txSend_result (s : State) (id : FrameId) (len : FrameLen) (data : List Byte) :
    (txSend s id len data).result = s.result := rfl
@[simp] theorem txSend_lastOp (s : State) (id : FrameId) (len : FrameLen) (data : List Byte) :
    (txSend s id len data).lastOp = s.lastOp := rfl
@[simp] theorem txSend_fsm (s : State) (id : FrameId) (len : FrameLen) (data : List Byte) :
    (txSend s id len data).fsm = s.fsm := rfl
@[simp] theorem txSend_bufBase (s : State) (id : FrameId) (len : FrameLen) (data : List Byte) :
    (txSend s id len data).bufBase = s.bufBase := rfl
@[simp] theorem txSend_bufSize (s : State) (id : FrameId) (len : FrameLen) (data : List Byte) :
    (txSend s id len data).bufSize = s.bufSize := rfl
@[simp] theorem txSend_timeout (s : State) (id : FrameId) (len : FrameLen) (data : List Byte) :
    (txSend s id len data).timeout = s.timeout := rfl
@[simp] theorem txSend_countReg (s : State) (id : FrameId) (len : FrameLen) (data : List Byte) :
    (txSend s id len data).countReg = s.countReg := rfl
@[simp] theorem txSend_config (s : State) (id : FrameId) (len : FrameLen) (data : List Byte) :
    (txSend s id len data).config = s.config := rfl
@[simp] theorem txSend_ownId (s : State) (id : FrameId) (len : FrameLen) (data : List Byte) :
    (txSend s id len data).ownId = s.ownId := rfl
@[simp] theorem txSend_bcastId (s : State) (id : FrameId) (len : FrameLen) (data : List Byte) :
    (txSend s id len data).bcastId = s.bcastId := rfl
@[simp] theorem txSend_txId (s : State) (id : FrameId) (len : FrameLen) (data : List Byte) :
    (txSend s id len data).txId = s.txId := rfl
@[simp] theorem txSend_cursor (s : State) (id : FrameId) (len : FrameLen) (data : List Byte) :
    (txSend s id len data).cursor = s.cursor := rfl
@[simp] theorem txSend_faultCause (s : State) (id : FrameId) (len : FrameLen) (data : List Byte) :
    (txSend s id len data).faultCause = s.faultCause := rfl
@[simp] theorem txSend_faultInfo (s : State) (id : FrameId) (len : FrameLen) (data : List Byte) :
    (txSend s id len data).faultInfo = s.faultInfo := rfl
@[simp] theorem txSend_irqMask (s : State) (id : FrameId) (len : FrameLen) (data : List Byte) :
    (txSend s id len data).irqMask = s.irqMask := rfl
@[simp] theorem txSend_slotTypeOk (s : State) (id : FrameId) (len : FrameLen) (data : List Byte) :
    (txSend s id len data).slotTypeOk = s.slotTypeOk := rfl
@[simp] theorem txSend_dp (s : State) (id : FrameId) (len : FrameLen) (data : List Byte) :
    (txSend s id len data).dp = s.dp := rfl
@[simp] theorem txSend_periph (s : State) (id : FrameId) (len : FrameLen) (data : List Byte) :
    (txSend s id len data).periph = { s.periph with tx := { busy := true, id := id, len := len, data := data } } := rfl
@[simp] theorem txSend_mem (s : State) (id : FrameId) (len : FrameLen) (data : List Byte) :
    (txSend s id len data).mem = s.mem := rfl
@[simp] theorem txSend_agenda (s : State) (id : FrameId) (len : FrameLen) (data : List Byte) :
    (txSend s id len data).agenda = s.agenda := rfl
@[simp] theorem txSend_refrain (s : State) (id : FrameId) (len : FrameLen) (data : List Byte) :
    (txSend s id len data).refrain = s.refrain := rfl
@[simp] theorem txSend_calls (s : State) (id : FrameId) (len : FrameLen) (data : List Byte) :
    (txSend s id len data).calls = .txSend id len data s.irqMask :: s.calls := rfl
@[simp] theorem txSend_readData (s : State) (id : FrameId) (len : FrameLen) (data : List Byte) :
    (txSend s id len data).readData = s.readData := rfl
@[simp] theorem txSend_bufData (s : State) (id : FrameId) (len : FrameLen) (data : List Byte) :
    (txSend s id len data).bufData = s.bufData := rfl
@[simp] theorem txSend_draws (s : State) (id : FrameId) (len : FrameLen) (data : List Byte) :
    (txSend s id len data).draws = s.draws := rfl

/-! ## finish -/

@[simp] theorem finish_params (s : State) (r : Result) (n : Nat) :
    (finish s r n).params = s.params := rfl
@[simp] theorem finish_busy (s : State) (r : Result) (n : Nat) : (finish s r n).busy = false := rfl
@[simp] theorem finish_fault (s : State) (r : Result) (n : Nat) :
    (finish s r n).fault = s.fault := rfl
@[simp] theorem finish_echoErr (s : State) (r : Result) (n : Nat) :
    (finish s r n).echoErr = s.echoErr := rfl
@[simp] theorem finish_result (s : State) (r : Result) (n : Nat) : (finish s r n).result = r := rfl
@[simp] theorem finish_lastOp (s : State) (r : Result) (n : Nat) :
    (finish s r n).lastOp = s.lastOp := rfl
@[simp] theorem finish_fsm (s : State) (r : Result) (n : Nat) : (finish s r n).fsm = .idle := rfl
@[simp] theorem finish_bufBase (s : State) (r : Result) (n : Nat) :
    (finish s r n).bufBase = s.bufBase := rfl
@[simp] theorem finish_bufSize (s : State) (r : Result) (n : Nat) :
    (finish s r n).bufSize = s.bufSize := rfl
@[simp] theorem finish_timeout (s : State) (r : Result) (n : Nat) :
    (finish s r n).timeout = s.timeout := rfl
@[simp] theorem finish_countReg (s : State) (r : Result) (n : Nat) :
    (finish s r n).countReg = cut s.params.sizeW n := rfl
@[simp] theorem finish_config (s : State) (r : Result) (n : Nat) :
    (finish s r n).config = s.config := rfl
@[simp] theorem finish_ownId (s : State) (r : Result) (n : Nat) :
    (finish s r n).ownId = s.ownId := rfl
@[simp] theorem finish_bcastId (s : State) (r : Result) (n : Nat) :
    (finish s r n).bcastId = s.bcastId := rfl
@[simp] theorem finish_txId (s : State) (r : Result) (n : Nat) : (finish s r n).txId = s.txId := rfl
@[simp] theorem finish_cursor (s : State) (r : Result) (n : Nat) :
    (finish s r n).cursor = s.cursor := rfl
@[simp] theorem finish_faultCause (s : State) (r : Result) (n : Nat) :
    (finish s r n).faultCause = s.faultCause := rfl
@[simp] theorem finish_faultInfo (s : State) (r : Result) (n : Nat) :
    (finish s r n).faultInfo = s.faultInfo := rfl
@[simp] theorem finish_irqMask (s : State) (r : Result) (n : Nat) :
    (finish s r n).irqMask = s.irqMask := rfl
@[simp] theorem finish_slotTypeOk (s : State) (r : Result) (n : Nat) :
    (finish s r n).slotTypeOk = s.slotTypeOk := rfl
@[simp] theorem finish_dp (s : State) (r : Result) (n : Nat) : (finish s r n).dp = s.dp := rfl
@[simp] theorem finish_periph (s : State) (r : Result) (n : Nat) :
    (finish s r n).periph = s.periph := rfl
@[simp] theorem finish_mem (s : State) (r : Result) (n : Nat) : (finish s r n).mem = s.mem := rfl
@[simp] theorem finish_agenda (s : State) (r : Result) (n : Nat) :
    (finish s r n).agenda = s.agenda := rfl
@[simp] theorem finish_refrain (s : State) (r : Result) (n : Nat) :
    (finish s r n).refrain = s.refrain := rfl
@[simp] theorem finish_calls (s : State) (r : Result) (n : Nat) :
    (finish s r n).calls = s.calls := rfl
@[simp] theorem finish_readData (s : State) (r : Result) (n : Nat) :
    (finish s r n).readData = s.readData := rfl
@[simp] theorem finish_bufData (s : State) (r : Result) (n : Nat) :
    (finish s r n).bufData = s.bufData := rfl
@[simp] theorem finish_draws (s : State) (r : Result) (n : Nat) :
    (finish s r n).draws = s.draws := rfl

/-! ## raiseFault -/

@[simp] theorem raiseFault_params (s : State) (c : FaultCause) (n : Nat) :
    (raiseFault s c n).params = s.params := rfl
@[simp] theorem raiseFault_busy (s : State) (c : FaultCause) (n : Nat) :
    (raiseFault s c n).busy = false := rfl
@[simp] theorem raiseFault_fault (s : State) (c : FaultCause) (n : Nat) :
    (raiseFault s c n).fault = true := rfl
@[simp] theorem raiseFault_echoErr (s : State) (c : FaultCause) (n : Nat) :
    (raiseFault s c n).echoErr = s.echoErr := rfl
@[simp] theorem raiseFault_result (s : State) (c : FaultCause) (n : Nat) :
    (raiseFault s c n).result = s.result := rfl
@[simp] theorem raiseFault_lastOp (s : State) (c : FaultCause) (n : Nat) :
    (raiseFault s c n).lastOp = s.lastOp := rfl
@[simp] theorem raiseFault_fsm (s : State) (c : FaultCause) (n : Nat) :
    (raiseFault s c n).fsm = .fault := rfl
@[simp] theorem raiseFault_bufBase (s : State) (c : FaultCause) (n : Nat) :
    (raiseFault s c n).bufBase = s.bufBase := rfl
@[simp] theorem raiseFault_bufSize (s : State) (c : FaultCause) (n : Nat) :
    (raiseFault s c n).bufSize = s.bufSize := rfl
@[simp] theorem raiseFault_timeout (s : State) (c : FaultCause) (n : Nat) :
    (raiseFault s c n).timeout = s.timeout := rfl
@[simp] theorem raiseFault_countReg (s : State) (c : FaultCause) (n : Nat) :
    (raiseFault s c n).countReg = s.countReg := rfl
@[simp] theorem raiseFault_config (s : State) (c : FaultCause) (n : Nat) :
    (raiseFault s c n).config = s.config := rfl
@[simp] theorem raiseFault_ownId (s : State) (c : FaultCause) (n : Nat) :
    (raiseFault s c n).ownId = s.ownId := rfl
@[simp] theorem raiseFault_bcastId (s : State) (c : FaultCause) (n : Nat) :
    (raiseFault s c n).bcastId = s.bcastId := rfl
@[simp] theorem raiseFault_txId (s : State) (c : FaultCause) (n : Nat) :
    (raiseFault s c n).txId = s.txId := rfl
@[simp] theorem raiseFault_cursor (s : State) (c : FaultCause) (n : Nat) :
    (raiseFault s c n).cursor = s.cursor := rfl
@[simp] theorem raiseFault_faultCause (s : State) (c : FaultCause) (n : Nat) :
    (raiseFault s c n).faultCause = if s.fault then s.faultCause else c := rfl
@[simp] theorem raiseFault_faultInfo (s : State) (c : FaultCause) (n : Nat) :
    (raiseFault s c n).faultInfo = if s.fault then s.faultInfo else BitVec.ofNat 32 n := rfl
@[simp] theorem raiseFault_irqMask (s : State) (c : FaultCause) (n : Nat) :
    (raiseFault s c n).irqMask = false := rfl
@[simp] theorem raiseFault_slotTypeOk (s : State) (c : FaultCause) (n : Nat) :
    (raiseFault s c n).slotTypeOk = s.slotTypeOk := rfl
@[simp] theorem raiseFault_dp (s : State) (c : FaultCause) (n : Nat) :
    (raiseFault s c n).dp = s.dp := rfl
@[simp] theorem raiseFault_periph (s : State) (c : FaultCause) (n : Nat) :
    (raiseFault s c n).periph = s.periph := rfl
@[simp] theorem raiseFault_mem (s : State) (c : FaultCause) (n : Nat) :
    (raiseFault s c n).mem = s.mem := rfl
@[simp] theorem raiseFault_agenda (s : State) (c : FaultCause) (n : Nat) :
    (raiseFault s c n).agenda = s.agenda := rfl
@[simp] theorem raiseFault_refrain (s : State) (c : FaultCause) (n : Nat) :
    (raiseFault s c n).refrain = s.refrain := rfl
@[simp] theorem raiseFault_calls (s : State) (c : FaultCause) (n : Nat) :
    (raiseFault s c n).calls = s.calls := rfl
@[simp] theorem raiseFault_readData (s : State) (c : FaultCause) (n : Nat) :
    (raiseFault s c n).readData = s.readData := rfl
@[simp] theorem raiseFault_bufData (s : State) (c : FaultCause) (n : Nat) :
    (raiseFault s c n).bufData = s.bufData := rfl
@[simp] theorem raiseFault_draws (s : State) (c : FaultCause) (n : Nat) :
    (raiseFault s c n).draws = s.draws := rfl

/-! ## accepted -/

@[simp] theorem accepted_params (s : State) (i : Instr) : (accepted s i).params = s.params := rfl
@[simp] theorem accepted_busy (s : State) (i : Instr) : (accepted s i).busy = true := rfl
@[simp] theorem accepted_fault (s : State) (i : Instr) : (accepted s i).fault = s.fault := rfl
@[simp] theorem accepted_echoErr (s : State) (i : Instr) : (accepted s i).echoErr = false := rfl
@[simp] theorem accepted_result (s : State) (i : Instr) : (accepted s i).result = .none := rfl
@[simp] theorem accepted_lastOp (s : State) (i : Instr) : (accepted s i).lastOp = some i := rfl
@[simp] theorem accepted_fsm (s : State) (i : Instr) : (accepted s i).fsm = s.fsm := rfl
@[simp] theorem accepted_bufBase (s : State) (i : Instr) : (accepted s i).bufBase = s.bufBase := rfl
@[simp] theorem accepted_bufSize (s : State) (i : Instr) : (accepted s i).bufSize = s.bufSize := rfl
@[simp] theorem accepted_timeout (s : State) (i : Instr) : (accepted s i).timeout = s.timeout := rfl
@[simp] theorem accepted_countReg (s : State) (i : Instr) :
    (accepted s i).countReg = s.countReg := rfl
@[simp] theorem accepted_config (s : State) (i : Instr) : (accepted s i).config = s.config := rfl
@[simp] theorem accepted_ownId (s : State) (i : Instr) : (accepted s i).ownId = s.ownId := rfl
@[simp] theorem accepted_bcastId (s : State) (i : Instr) : (accepted s i).bcastId = s.bcastId := rfl
@[simp] theorem accepted_txId (s : State) (i : Instr) : (accepted s i).txId = s.txId := rfl
@[simp] theorem accepted_cursor (s : State) (i : Instr) : (accepted s i).cursor = s.cursor := rfl
@[simp] theorem accepted_faultCause (s : State) (i : Instr) :
    (accepted s i).faultCause = s.faultCause := rfl
@[simp] theorem accepted_faultInfo (s : State) (i : Instr) :
    (accepted s i).faultInfo = s.faultInfo := rfl
@[simp] theorem accepted_irqMask (s : State) (i : Instr) : (accepted s i).irqMask = s.irqMask := rfl
@[simp] theorem accepted_slotTypeOk (s : State) (i : Instr) :
    (accepted s i).slotTypeOk = s.slotTypeOk := rfl
@[simp] theorem accepted_dp (s : State) (i : Instr) : (accepted s i).dp = s.dp := rfl
@[simp] theorem accepted_periph (s : State) (i : Instr) : (accepted s i).periph = s.periph := rfl
@[simp] theorem accepted_mem (s : State) (i : Instr) : (accepted s i).mem = s.mem := rfl
@[simp] theorem accepted_agenda (s : State) (i : Instr) : (accepted s i).agenda = s.agenda := rfl
@[simp] theorem accepted_refrain (s : State) (i : Instr) : (accepted s i).refrain = s.refrain := rfl
@[simp] theorem accepted_calls (s : State) (i : Instr) : (accepted s i).calls = s.calls := rfl
@[simp] theorem accepted_readData (s : State) (i : Instr) :
    (accepted s i).readData = s.readData := rfl
@[simp] theorem accepted_bufData (s : State) (i : Instr) : (accepted s i).bufData = s.bufData := rfl
@[simp] theorem accepted_draws (s : State) (i : Instr) : (accepted s i).draws = s.draws := rfl

/-! ## popTurn -/

@[simp] theorem popTurn_params (s : State) : (popTurn s).params = s.params := rfl
@[simp] theorem popTurn_busy (s : State) : (popTurn s).busy = s.busy := rfl
@[simp] theorem popTurn_fault (s : State) : (popTurn s).fault = s.fault := rfl
@[simp] theorem popTurn_echoErr (s : State) : (popTurn s).echoErr = s.echoErr := rfl
@[simp] theorem popTurn_result (s : State) : (popTurn s).result = s.result := rfl
@[simp] theorem popTurn_lastOp (s : State) : (popTurn s).lastOp = s.lastOp := rfl
@[simp] theorem popTurn_fsm (s : State) : (popTurn s).fsm = s.fsm := rfl
@[simp] theorem popTurn_bufBase (s : State) : (popTurn s).bufBase = s.bufBase := rfl
@[simp] theorem popTurn_bufSize (s : State) : (popTurn s).bufSize = s.bufSize := rfl
@[simp] theorem popTurn_timeout (s : State) : (popTurn s).timeout = s.timeout := rfl
@[simp] theorem popTurn_countReg (s : State) : (popTurn s).countReg = s.countReg := rfl
@[simp] theorem popTurn_config (s : State) : (popTurn s).config = s.config := rfl
@[simp] theorem popTurn_ownId (s : State) : (popTurn s).ownId = s.ownId := rfl
@[simp] theorem popTurn_bcastId (s : State) : (popTurn s).bcastId = s.bcastId := rfl
@[simp] theorem popTurn_txId (s : State) : (popTurn s).txId = s.txId := rfl
@[simp] theorem popTurn_cursor (s : State) : (popTurn s).cursor = s.cursor := rfl
@[simp] theorem popTurn_faultCause (s : State) : (popTurn s).faultCause = s.faultCause := rfl
@[simp] theorem popTurn_faultInfo (s : State) : (popTurn s).faultInfo = s.faultInfo := rfl
@[simp] theorem popTurn_irqMask (s : State) : (popTurn s).irqMask = s.irqMask := rfl
@[simp] theorem popTurn_slotTypeOk (s : State) : (popTurn s).slotTypeOk = s.slotTypeOk := rfl
@[simp] theorem popTurn_dp (s : State) : (popTurn s).dp = s.dp := rfl
@[simp] theorem popTurn_periph (s : State) : (popTurn s).periph = s.periph := rfl
@[simp] theorem popTurn_mem (s : State) : (popTurn s).mem = s.mem := rfl
@[simp] theorem popTurn_agenda (s : State) : (popTurn s).agenda = laterTurns s := rfl
@[simp] theorem popTurn_refrain (s : State) : (popTurn s).refrain = s.refrain := rfl
@[simp] theorem popTurn_calls (s : State) : (popTurn s).calls = s.calls := rfl
@[simp] theorem popTurn_readData (s : State) : (popTurn s).readData = s.readData := rfl
@[simp] theorem popTurn_bufData (s : State) : (popTurn s).bufData = s.bufData := rfl
@[simp] theorem popTurn_draws (s : State) : (popTurn s).draws = s.draws := rfl

/-! ## blockReset -/

@[simp] theorem blockReset_params (s : State) : (blockReset s).params = s.params := rfl
@[simp] theorem blockReset_busy (s : State) : (blockReset s).busy = false := rfl
@[simp] theorem blockReset_fault (s : State) : (blockReset s).fault = false := rfl
@[simp] theorem blockReset_echoErr (s : State) : (blockReset s).echoErr = false := rfl
@[simp] theorem blockReset_result (s : State) : (blockReset s).result = .none := rfl
@[simp] theorem blockReset_lastOp (s : State) : (blockReset s).lastOp = none := rfl
@[simp] theorem blockReset_fsm (s : State) : (blockReset s).fsm = .idle := rfl
@[simp] theorem blockReset_bufBase (s : State) : (blockReset s).bufBase = 0 := rfl
@[simp] theorem blockReset_bufSize (s : State) : (blockReset s).bufSize = 0 := rfl
@[simp] theorem blockReset_timeout (s : State) : (blockReset s).timeout = 0 := rfl
@[simp] theorem blockReset_countReg (s : State) : (blockReset s).countReg = 0 := rfl
@[simp] theorem blockReset_config (s : State) : (blockReset s).config = 0 := rfl
@[simp] theorem blockReset_ownId (s : State) : (blockReset s).ownId = 0 := rfl
@[simp] theorem blockReset_bcastId (s : State) : (blockReset s).bcastId = 0 := rfl
@[simp] theorem blockReset_txId (s : State) : (blockReset s).txId = 0 := rfl
@[simp] theorem blockReset_cursor (s : State) : (blockReset s).cursor = 0 := rfl
@[simp] theorem blockReset_faultCause (s : State) : (blockReset s).faultCause = .none := rfl
@[simp] theorem blockReset_faultInfo (s : State) : (blockReset s).faultInfo = 0 := rfl
@[simp] theorem blockReset_irqMask (s : State) : (blockReset s).irqMask = false := rfl
@[simp] theorem blockReset_slotTypeOk (s : State) : (blockReset s).slotTypeOk = s.slotTypeOk := rfl
@[simp] theorem blockReset_dp (s : State) :
    (blockReset s).dp = unspecifiedDatapath s.params s.draws := rfl
@[simp] theorem blockReset_periph (s : State) : (blockReset s).periph = s.periph := rfl
@[simp] theorem blockReset_mem (s : State) : (blockReset s).mem = s.mem := rfl
@[simp] theorem blockReset_agenda (s : State) : (blockReset s).agenda = s.agenda := rfl
@[simp] theorem blockReset_refrain (s : State) : (blockReset s).refrain = s.refrain := rfl
@[simp] theorem blockReset_calls (s : State) : (blockReset s).calls = s.calls := rfl
@[simp] theorem blockReset_readData (s : State) : (blockReset s).readData = s.readData := rfl
@[simp] theorem blockReset_bufData (s : State) : (blockReset s).bufData = s.bufData := rfl
@[simp] theorem blockReset_draws (s : State) : (blockReset s).draws = s.draws + 1 := rfl

end Sys2Proof.Machine
end

