-- ==== Sys2Proof/Laws/Commands.lean ====
section
/-!
SUPPORT. What one command's atomic step is, said once: while a command runs it is the micro-step the
state names, else the issue of the command. Beside it, what a register cut to its width holds, and
what a release leaves in the list of slots.
-/

namespace Sys2Proof.Machine

open Sys2Proof.Config

/-- A value that fits a register is stored unchanged (00_scope.md rule R9). -/
theorem cut_of_lt {w n : Nat} (h : n < 2 ^ w) : cut w n = n := Nat.mod_eq_of_lt h

theorem cut_lt (w n : Nat) : cut w n < 2 ^ w := Nat.mod_lt _ (Nat.two_pow_pos w)

/-- `CURSOR` can hold every value from 0 to `N_RX` (10_state.md rule R20). -/
theorem lt_cursorWidth (p : Params) {n : Nat} (h : n ≤ p.nRx) : n < 2 ^ cursorWidth p :=
  lt_of_le_of_lt h Nat.lt_log2_self

theorem modify_eq_set {l : List RxSlot} {i : Nat} {slot : RxSlot} {f : RxSlot → RxSlot}
    (h : l[i]? = some slot) : l.modify i f = l.set i (f slot) := by
  apply List.ext_getElem?
  intro j
  rw [List.getElem?_modify, List.getElem?_set]
  by_cases e : i = j
  · subst e
    have hi : i < l.length := (List.getElem?_eq_some_iff.1 h).1
    rw [List.getElem?_eq_some_iff] at h
    obtain ⟨_, h⟩ := h
    simp [h, hi]
  · simp [e]

/-- The address filter as the rule says it (42_datapath.md rule R175). -/
theorem accept_iff_fields (s : State) (id : FrameId) :
    accept s id = true ↔ filterEn s = false ∨ id = s.ownId ∨ (bcastEn s = true ∧ id = s.bcastId) := by
  simp [accept, or_assoc]

/-- While a command runs, one atomic step of it is the micro-step its state names. -/
theorem exec_of_running {s : State} {i : Instr} (h : running s = some i) :
    exec i s = microStep s := by
  cases i
  · simp only [exec, execRead, h]
  · simp only [exec, execWrite, h]

/-- While no command runs, both commands are issued. -/
theorem exec_of_idle {s : State} (h : running s = none) :
    exec .read s = .next (issue s startRead) ∧ exec .write s = .next (issue s startWrite) := by
  simp only [exec, execRead, execWrite, h, and_self]

theorem issue_cases (s : State) (start : State → State) :
    (s.fault = true ∧ issue s start = s) ∨
    (s.fault = false ∧ s.busy = true ∧ issue s start = raiseFault s .busyWrite 0) ∨
    (s.fault = false ∧ s.busy = false ∧ issue s start = start s) := by
  unfold issue
  cases h1 : s.fault <;> cases h2 : s.busy <;> simp

end Sys2Proof.Machine
end

