-- ==== Sys2Proof/Laws/Agenda.lean ====
section
/-!
SUPPORT. What a turn of each agent can answer, said once: the block's, the environment's, the
host's, and from these the step's. Every lemma has the form "if it answers a next state, then one of
these cases holds".
-/

namespace Sys2Proof.Machine

open Sys2Proof.Config

theorem blockTurn_cases {s t : State} (h : blockTurn s = .next t) :
    (running s = none ∧ t = s) ∨ ((running s).isSome = true ∧ microStep s = .next t) := by
  unfold blockTurn at h
  split at h
  · rename_i i hi
    rw [exec_of_running hi] at h
    exact .inr ⟨by rw [hi]; rfl, h⟩
  · rename_i hi
    injection h with h
    exact .inl ⟨hi, h.symm⟩

theorem envStep_cases {s t : State} {e : EnvStep} (h : envStep s e = .next t) :
    (∃ i id len lanes slot, e = .arrive i id len lanes ∧ slotAt s i = some slot ∧
      slot.full = false ∧
      t =
        { s with
          periph :=
            { s.periph with
              slots :=
                s.periph.slots.set i { full := true, id := id, len := len, lanes := lanes } } }) ∨
    (e = .txFree ∧ s.periph.tx.busy = true ∧
      t = { s with periph := { s.periph with tx := { s.periph.tx with busy := false } } }) ∨
    (∃ v, e = .tec v ∧ v < 2 ^ s.params.tecW ∧ t = { s with periph := { s.periph with tec := v } }) ∨
    (∃ b, e = .bus b ∧ (s.periph.bus = .busOff → b = .busOff) ∧
      t = { s with periph := { s.periph with bus := b } }) ∨
    (∃ ok, e = .slotType ok ∧ writeRuns s = false ∧ t = { s with slotTypeOk := ok }) := by
  cases e with
  | arrive i id len lanes =>
    dsimp only [envStep] at h
    split at h
    · cases h
    · rename_i slot hs
      split at h
      · cases h
      · rename_i hf
        injection h with h
        exact .inl ⟨i, id, len, lanes, slot, rfl, hs, by simpa using hf, h.symm⟩
  | txFree =>
    dsimp only [envStep] at h
    split at h
    · rename_i hb
      injection h with h
      exact .inr (.inl ⟨rfl, hb, h.symm⟩)
    · cases h
  | tec v =>
    dsimp only [envStep] at h
    split at h
    · rename_i hb
      injection h with h
      exact .inr (.inr (.inl ⟨v, rfl, hb, h.symm⟩))
    · cases h
  | bus b =>
    dsimp only [envStep] at h
    split at h
    · cases h
    · rename_i hb
      injection h with h
      refine .inr (.inr (.inr (.inl ⟨b, rfl, fun ho => ?_, h.symm⟩)))
      by_contra hn
      exact hb ⟨ho, hn⟩
  | slotType ok =>
    dsimp only [envStep] at h
    split at h
    · cases h
    · rename_i hb
      injection h with h
      exact .inr (.inr (.inr (.inr ⟨ok, rfl, by simpa using hb, h.symm⟩)))

theorem writeCmd_cases {s t : State} {w : Word} (h : writeCmd s w = .next t) :
    (∃ i, decode w = .instr i ∧ exec i s = .next t) ∨
    (∃ v, decode w = .illegal (.illegalCmd v) ∧ t = raiseFault s .illegalCmd v.toNat) := by
  unfold writeCmd at h
  split at h
  · rename_i i hi
    exact .inl ⟨i, hi, h⟩
  · rename_i v hv
    injection h with h
    exact .inr ⟨v, hv, h.symm⟩

theorem hostWrite_cases {s t : State} {offset width : Nat} {data : Word}
    (h : hostWrite s offset width data = .next t) :
    (shapeOk offset width = false ∧ t = raiseFault s .hostAccess offset) ∨
    (s.fault = true ∧ t = s) ∨
    (s.fault = false ∧ s.busy = true ∧ t = raiseFault s .busyWrite offset) ∨
    (s.fault = false ∧ s.busy = false ∧ offset = 0 ∧ writeCmd s data = .next t) ∨
    (s.fault = false ∧ s.busy = false ∧ storeReg offset data s = some t) ∨
    (s.fault = false ∧ s.busy = false ∧ storeReg offset data s = none ∧
      t = raiseFault s .hostAccess offset) := by
  unfold hostWrite at h
  split at h
  · rename_i h1
    injection h with h
    exact .inl ⟨by simpa using h1, h.symm⟩
  · split at h
    · rename_i h2
      injection h with h
      exact .inr (.inl ⟨h2, h.symm⟩)
    · rename_i h2
      have h2 : s.fault = false := by simpa using h2
      split at h
      · rename_i h3
        injection h with h
        exact .inr (.inr (.inl ⟨h2, h3, h.symm⟩))
      · rename_i h3
        have h3 : s.busy = false := by simpa using h3
        split at h
        · rename_i h4
          exact .inr (.inr (.inr (.inl ⟨h2, h3, h4, h⟩)))
        · split at h
          · rename_i u h5
            injection h with h
            exact .inr (.inr (.inr (.inr (.inl ⟨h2, h3, by rw [h5, h]⟩))))
          · rename_i h5
            injection h with h
            exact .inr (.inr (.inr (.inr (.inr ⟨h2, h3, h5, h.symm⟩))))

theorem hostRead_cases {s t : State} {offset width : Nat} (h : hostRead s offset width = .next t) :
    (shapeOk offset width = false ∧ t = raiseFault s .hostAccess offset) ∨
    (shapeOk offset width = true ∧ t = { s with readData := readReg offset s }) := by
  unfold hostRead at h
  split at h
  · rename_i h1
    injection h with h
    exact .inl ⟨by simpa using h1, h.symm⟩
  · rename_i h1
    injection h with h
    exact .inr ⟨by simpa using h1, h.symm⟩

/-- A register write stores at one of seven offsets and changes that register alone. -/
theorem storeReg_cases {s t : State} {offset : Nat} {data : Word}
    (h : storeReg offset data s = some t) :
    (offset = 0x08 ∧ t = { s with bufBase := cut s.params.addrW data.toNat }) ∨
    (offset = 0x0C ∧ t = { s with bufSize := cut s.params.sizeW data.toNat }) ∨
    (offset = 0x10 ∧ t = { s with timeout := cut s.params.timeoutW data.toNat }) ∨
    (offset = 0x18 ∧ t = { s with config := data.setWidth 3 }) ∨
    (offset = 0x1C ∧ t = { s with ownId := data.setWidth 11 }) ∨
    (offset = 0x20 ∧ t = { s with bcastId := data.setWidth 11 }) ∨
    (offset = 0x24 ∧ t = { s with txId := data.setWidth 11 }) := by
  unfold storeReg at h
  split at h <;> first | (injection h with h; subst h; simp) | cases h

theorem hostStep_cases {s t : State} {u : HostStep} (h : hostStep s u = .next t) :
    (∃ addr width data offset, u = .regWrite addr width data ∧
      regOffset s.params addr = some offset ∧ hostWrite s offset width data = .next t) ∨
    (∃ addr width offset, u = .regRead addr width ∧ regOffset s.params addr = some offset ∧
      hostRead s offset width = .next t) ∨
    (s.busy = false ∧
      ((∃ addr v, u = .bufWrite addr v ∧ addr < spaceEnd s ∧
          t = { s with mem := s.mem.write addr v }) ∨
       (∃ addr, u = .bufRead addr ∧ addr < spaceEnd s ∧
          t = { s with bufData := s.mem.read addr }) ∨
       (∃ p, u = .periphReset p ∧ p.slots.length = s.params.nRx ∧ p.tec < 2 ^ s.params.tecW ∧
          p.bus ≠ .busOff ∧ t = { s with periph := p }) ∨
       ((u = .periphStart ∨ u = .periphStop) ∧ t = s))) := by
  cases u with
  | regWrite addr width data =>
    dsimp only [hostStep] at h
    split at h
    · rename_i offset ho
      exact .inl ⟨addr, width, data, offset, rfl, ho, h⟩
    · cases h
  | regRead addr width =>
    dsimp only [hostStep] at h
    split at h
    · rename_i offset ho
      exact .inr (.inl ⟨addr, width, offset, rfl, ho, h⟩)
    · cases h
  | bufWrite addr v =>
    dsimp only [hostStep] at h
    split at h
    · cases h
    · rename_i hb
      split at h
      · rename_i ha
        injection h with h
        exact .inr (.inr ⟨by simpa using hb, .inl ⟨addr, v, rfl, ha, h.symm⟩⟩)
      · cases h
  | bufRead addr =>
    dsimp only [hostStep] at h
    split at h
    · cases h
    · rename_i hb
      split at h
      · rename_i ha
        injection h with h
        exact .inr (.inr ⟨by simpa using hb, .inr (.inl ⟨addr, rfl, ha, h.symm⟩)⟩)
      · cases h
  | periphReset p =>
    dsimp only [hostStep] at h
    split at h
    · cases h
    · rename_i hb
      split at h
      · rename_i hp
        injection h with h
        exact .inr (.inr ⟨by simpa using hb, .inr (.inr (.inl ⟨p, rfl, hp.1, hp.2.1, hp.2.2, h.symm⟩))⟩)
      · cases h
  | periphStart =>
    dsimp only [hostStep] at h
    split at h
    · cases h
    · rename_i hb
      injection h with h
      exact .inr (.inr ⟨by simpa using hb, .inr (.inr (.inr ⟨.inl rfl, h.symm⟩))⟩)
  | periphStop =>
    dsimp only [hostStep] at h
    split at h
    · cases h
    · rename_i hb
      injection h with h
      exact .inr (.inr ⟨by simpa using hb, .inr (.inr (.inr ⟨.inr rfl, h.symm⟩))⟩)

theorem takeTurn_cases {s t : State} {u : Turn} (h : takeTurn s u = .next t) :
    (u = .block ∧ blockTurn s = .next t) ∨
    (∃ e, u = .env e ∧ envStep s e = .next t) ∨
    (∃ x, u = .host x ∧ hostStep s x = .next t) ∨
    (u = .reset ∧ t = blockReset s) := by
  cases u with
  | block => exact .inl ⟨rfl, h⟩
  | env e => exact .inr (.inl ⟨e, rfl, h⟩)
  | host x => exact .inr (.inr (.inl ⟨x, rfl, h⟩))
  | reset =>
    injection h with h
    exact .inr (.inr (.inr ⟨rfl, h.symm⟩))

theorem nextTurn_of_cons {s : State} {u : Turn} {rest : List Turn} (ha : s.agenda = u :: rest) :
    nextTurn s = u := by
  simp only [nextTurn, ha]

theorem nextTurn_of_refrain {s : State} {u : Turn} {rest : List Turn} (ha : s.agenda = [])
    (hr : s.refrain = u :: rest) : nextTurn s = u := by
  simp only [nextTurn, ha, hr]

theorem nextTurn_of_quiet {s : State} (ha : s.agenda = []) (hr : s.refrain = []) :
    nextTurn s = .block := by
  simp only [nextTurn, ha, hr]

theorem popTurn_of_cons {s : State} {u : Turn} {rest : List Turn} (ha : s.agenda = u :: rest) :
    popTurn s = { s with agenda := rest } := by
  simp only [popTurn, laterTurns, ha]

theorem popTurn_of_refrain {s : State} {u : Turn} {rest : List Turn} (ha : s.agenda = [])
    (hr : s.refrain = u :: rest) : popTurn s = { s with agenda := rest } := by
  simp only [popTurn, laterTurns, ha, hr, List.tail_cons]

theorem popTurn_of_quiet {s : State} (ha : s.agenda = []) (hr : s.refrain = []) :
    popTurn s = s := by
  cases s
  simp_all [popTurn, laterTurns]

/-- A step of a state that fits is its next turn, taken off the agenda. -/
theorem step_of_fits {s : State} (hf : fits s = true) :
    step s = takeTurn (popTurn s) (nextTurn s) := by
  simp only [step, systemStep, hf, Bool.not_true, Bool.false_eq_true, if_false]

/-- A step that answers a next state took the next turn of a state that fits. -/
theorem step_cases {s t : State} (h : step s = .next t) :
    fits s = true ∧ takeTurn (popTurn s) (nextTurn s) = .next t := by
  unfold step systemStep at h
  split at h
  · cases h
  · rename_i hf
    exact ⟨by simpa using hf, h⟩

theorem step_of_quiet {s : State} (hf : fits s = true) (ha : s.agenda = []) (hr : s.refrain = []) :
    step s = blockTurn s := by
  rw [step_of_fits hf, nextTurn_of_quiet ha hr, popTurn_of_quiet ha hr]
  rfl

theorem step_of_cons {s : State} {u : Turn} {rest : List Turn} (hf : fits s = true)
    (ha : s.agenda = u :: rest) : step s = takeTurn { s with agenda := rest } u := by
  rw [step_of_fits hf, nextTurn_of_cons ha, popTurn_of_cons ha]

theorem step_of_refrain {s : State} {u : Turn} {rest : List Turn} (hf : fits s = true)
    (ha : s.agenda = []) (hr : s.refrain = u :: rest) :
    step s = takeTurn { s with agenda := rest } u := by
  rw [step_of_fits hf, nextTurn_of_refrain ha hr, popTurn_of_refrain ha hr]

end Sys2Proof.Machine
end

