-- ==== Sys2Proof/Laws/Memory.lean ====
section
/-!
SUPPORT. The buffer memory: what a read gives after each operation, and that every operation keeps
the canonical form and the bounds on the addresses listed.
-/

namespace Sys2Proof.Machine

/-! ## One write -/

theorem read_write_same (m : Memory) (x : Nat) (v : Byte) (h : m.wf) :
    (m.write x v).read x = v := by
  induction m with
  | nil => by_cases hv : v = blankByte <;> simp [Memory.write, Memory.read, hv]
  | cons c m ih =>
    obtain ⟨a, b⟩ := c
    obtain ⟨hs, hb⟩ := h
    rw [List.pairwise_cons] at hs
    have hm : Memory.wf m := ⟨hs.2, fun c hc => hb c (List.mem_cons_of_mem _ hc)⟩
    have absent : ∀ m' : Memory, (∀ c ∈ m', x < c.1) → Memory.read m' x = blankByte := by
      intro m' h'
      induction m' with
      | nil => rfl
      | cons d m' ih' =>
        obtain ⟨a', b'⟩ := d
        have h1 := h' (a', b') List.mem_cons_self
        have h2 := ih' (fun c hc => h' c (List.mem_cons_of_mem _ hc))
        simp only [Memory.read]
        rw [if_neg (by omega), h2]
    unfold Memory.write
    split
    · rename_i hlt
      split
      · rename_i hv
        rw [hv]
        refine absent _ ?_
        intro c hc
        rcases List.mem_cons.1 hc with rfl | hc
        · exact hlt
        · exact lt_trans hlt (hs.1 c hc)
      · simp [Memory.read]
    · split
      · rename_i hle heq
        split
        · rename_i hv
          rw [hv]
          exact absent _ (fun c hc => heq ▸ hs.1 c hc)
        · simp [Memory.read]
      · rename_i hle hne
        simp only [Memory.read]
        rw [if_neg (by omega)]
        exact ih hm

theorem read_write_other (m : Memory) (x y : Nat) (v : Byte) (h : y ≠ x) :
    (m.write x v).read y = m.read y := by
  induction m with
  | nil => by_cases hv : v = blankByte <;> simp [Memory.write, Memory.read, hv, Ne.symm h]
  | cons c m ih =>
    obtain ⟨a, b⟩ := c
    unfold Memory.write
    split
    · split
      · rfl
      · simp [Memory.read, Ne.symm h]
    · split
      · rename_i heq
        split <;> simp [Memory.read, ← heq, Ne.symm h]
      · simp only [Memory.read, ih]

theorem mem_write (m : Memory) (x : Nat) (v : Byte) (c : Host.Cell) (hc : c ∈ m.write x v) :
    c ∈ m ∨ (c = (x, v) ∧ v ≠ blankByte) := by
  induction m with
  | nil =>
    by_cases hv : v = blankByte
    · simp [Memory.write, hv] at hc
    · simp [Memory.write, hv] at hc
      exact .inr ⟨hc, hv⟩
  | cons d m ih =>
    obtain ⟨a, b⟩ := d
    unfold Memory.write at hc
    split at hc
    · split at hc
      · exact .inl hc
      · rename_i hv
        rcases List.mem_cons.1 hc with h | h
        · exact .inr ⟨h, hv⟩
        · exact .inl h
    · split at hc
      · split at hc
        · exact .inl (List.mem_cons_of_mem _ hc)
        · rename_i hv
          rcases List.mem_cons.1 hc with h | h
          · exact .inr ⟨h, hv⟩
          · exact .inl (List.mem_cons_of_mem _ h)
      · rcases List.mem_cons.1 hc with h | h
        · exact .inl (h ▸ List.mem_cons_self)
        · rcases ih h with h | h
          · exact .inl (List.mem_cons_of_mem _ h)
          · exact .inr h

theorem write_wf (m : Memory) (x : Nat) (v : Byte) (h : m.wf) : (m.write x v).wf := by
  refine ⟨?_, ?_⟩
  · induction m with
    | nil => by_cases hv : v = blankByte <;> simp [Memory.write, hv]
    | cons c m ih =>
      obtain ⟨a, b⟩ := c
      obtain ⟨hs, hb⟩ := h
      have hs' := List.pairwise_cons.1 hs
      have hm : Memory.wf m := ⟨hs'.2, fun c hc => hb c (List.mem_cons_of_mem _ hc)⟩
      unfold Memory.write
      split
      · rename_i hlt
        split
        · exact hs
        · refine List.pairwise_cons.2 ⟨?_, hs⟩
          intro c hc
          rcases List.mem_cons.1 hc with rfl | hc
          · exact hlt
          · exact lt_trans hlt (hs'.1 c hc)
      · split
        · rename_i hle heq
          split
          · exact hs'.2
          · refine List.pairwise_cons.2 ⟨?_, hs'.2⟩
            exact fun c hc => heq ▸ hs'.1 c hc
        · rename_i hle hne
          refine List.pairwise_cons.2 ⟨?_, ih hm⟩
          intro c hc
          rcases mem_write _ _ _ _ hc with h | ⟨rfl, -⟩
          · exact hs'.1 c h
          · show a < x
            omega
  · intro c hc
    rcases mem_write _ _ _ _ hc with hc | ⟨rfl, hv⟩
    · exact h.2 c hc
    · exact hv

theorem write_bound (m : Memory) (x : Nat) (v : Byte) (n : Nat) (hx : x < n)
    (h : ∀ c ∈ m, c.1 < n) : ∀ c ∈ m.write x v, c.1 < n := by
  intro c hc
  rcases mem_write _ _ _ _ hc with hc | ⟨rfl, -⟩
  · exact h c hc
  · exact hx

/-! ## Filling -/

theorem fill_wf (m : Memory) (base : Nat) (v : Byte) (n : Nat) (h : m.wf) :
    (Memory.fill m base v n).wf := by
  induction n with
  | zero => exact h
  | succ n ih => exact write_wf _ _ _ ih

theorem fill_bound (m : Memory) (base : Nat) (v : Byte) (n k : Nat) (hn : base + n ≤ k ∨ n = 0)
    (h : ∀ c ∈ m, c.1 < k) : ∀ c ∈ Memory.fill m base v n, c.1 < k := by
  induction n with
  | zero => exact h
  | succ n ih => exact write_bound _ _ _ _ (by omega) (ih (by omega))

theorem read_fill (m : Memory) (base : Nat) (v : Byte) (n x : Nat) (h : m.wf) :
    (Memory.fill m base v n).read x =
      if base ≤ x ∧ x < base + n then v else m.read x := by
  induction n with
  | zero => rw [if_neg (by omega)]; rfl
  | succ n ih =>
    by_cases hx : x = base + n
    · subst hx
      rw [Memory.fill, read_write_same _ _ _ (fill_wf _ _ _ _ h), if_pos (by omega)]
    · rw [Memory.fill, read_write_other _ _ _ _ hx, ih]
      by_cases h1 : base ≤ x ∧ x < base + n
      · rw [if_pos h1, if_pos (by omega)]
      · rw [if_neg h1, if_neg (by omega)]

/-! ## Copying a frame down -/

theorem copyDown_wf (f : Nat → Byte) (m : Memory) (base n : Nat) (h : m.wf) :
    (Memory.copyDown f m base n).wf := by
  induction n generalizing m with
  | zero => exact h
  | succ n ih => exact ih _ (write_wf _ _ _ h)

theorem copyDown_bound (f : Nat → Byte) (m : Memory) (base n k : Nat) (hn : base + n ≤ k ∨ n = 0)
    (h : ∀ c ∈ m, c.1 < k) : ∀ c ∈ Memory.copyDown f m base n, c.1 < k := by
  induction n generalizing m with
  | zero => exact h
  | succ n ih => exact ih _ (by omega) (write_bound _ _ _ _ (by omega) h)

theorem read_copyDown (f : Nat → Byte) (m : Memory) (base n x : Nat) (h : m.wf) :
    (Memory.copyDown f m base n).read x =
      if base ≤ x ∧ x < base + n then f (x - base) else m.read x := by
  induction n generalizing m with
  | zero => rw [if_neg (by omega)]; rfl
  | succ n ih =>
    rw [Memory.copyDown, ih _ (write_wf _ _ _ h)]
    by_cases hx : x = base + n
    · subst hx
      rw [if_neg (by omega), read_write_same _ _ _ h, if_pos (by omega), Nat.add_sub_cancel_left]
    · rw [read_write_other _ _ _ _ hx]
      by_cases h1 : base ≤ x ∧ x < base + n
      · rw [if_pos h1, if_pos (by omega)]
      · rw [if_neg h1, if_neg (by omega)]

/-! ## Loading a chunk -/

theorem loadInto_get (m : Memory) (base : Nat) (old : Lanes) (n j : Nat) (hj : j < 8) :
    (Memory.loadInto m base old n)[j] = if j < n then m.read (base + j) else old[j] := by
  induction n with
  | zero => rw [if_neg (by omega)]; rfl
  | succ n ih =>
    rw [Memory.loadInto, Vector.getElem_setIfInBounds]
    by_cases h : n = j
    · subst h
      rw [if_pos rfl, if_pos (by omega)]
    · rw [if_neg h, ih]
      by_cases h1 : j < n
      · rw [if_pos h1, if_pos (by omega)]
      · rw [if_neg h1, if_neg (by omega)]

end Sys2Proof.Machine
end

