-- ==== Sys2Proof/Laws/PerInstr.lean ====
section
/-!
SUPPORT. Statements for every command, one lemma for each constructor of Instr.
-/

namespace Sys2Proof.Laws

/-- A well-formed command's word decodes to the command (30_encoding.md rules R90 and R91). -/
def EncodingRoundTrip.Statement (i : Instr) : Prop :=
  i.wellFormed = true → decode (encode i) = .instr i

theorem EncodingRoundTrip.read : EncodingRoundTrip.Statement .read := fun _ => by decide

theorem EncodingRoundTrip.write : EncodingRoundTrip.Statement .write := fun _ => by decide

end Sys2Proof.Laws
end

