-- ==== Sys2Proof/Laws/Receive.lean ====
section
/-!
SUPPORT. What each micro-step of READ can answer, said once (41_receive.md rules R141 to R153), and
what `Complete` reads (42_datapath.md rule R174).
-/

namespace Sys2Proof.Machine

open Sys2Proof.Config

theorem rxStart_cases {s t : State} (h : rxStart s = .next t) :
    (s.bufSize = 0 ∧ t = finish s .ok 0) ∨
    (0 < s.bufSize ∧ s.bufSize < maxFrameLen ∧ t = raiseFault s .rxSize s.bufSize) ∨
    (maxFrameLen ≤ s.bufSize ∧ spaceEnd s < s.bufBase + s.bufSize ∧
      t = raiseFault s .addrRange s.bufBase) ∨
    (maxFrameLen ≤ s.bufSize ∧ s.bufBase + s.bufSize ≤ spaceEnd s ∧
      t = goto (setDp s
        { s.dp with count := 0, produced := 0, rxBudget := initialBudget s.timeout })
        .rxClear) := by
  unfold rxStart at h
  split at h
  · rename_i h1
    injection h with h
    exact .inl ⟨h1, h.symm⟩
  · rename_i h1
    split at h
    · rename_i h2
      injection h with h
      exact .inr (.inl ⟨by omega, h2, h.symm⟩)
    · rename_i h2
      split at h
      · rename_i h3
        injection h with h
        exact .inr (.inr (.inl ⟨by omega, h3, h.symm⟩))
      · rename_i h3
        injection h with h
        exact .inr (.inr (.inr ⟨by omega, by omega, h.symm⟩))

theorem rxClear_cases {s t : State} (h : rxClear s = .next t) :
    inSpace s s.bufBase s.bufSize = true ∧
    t = goto { s with mem := Memory.fill s.mem s.bufBase 0x00 s.bufSize } .rxPassTop := by
  unfold rxClear at h
  split at h
  · cases h
  · rename_i h1
    injection h with h
    exact ⟨by simpa using h1, h.symm⟩

theorem rxPassTop_cases {s t : State} (h : rxPassTop s = .next t) :
    (s.dp.rxBudget < 0 ∧ t = goto s .rxFinal) ∨
    (0 ≤ s.dp.rxBudget ∧ s.params.nRx ≤ s.cursor ∧
      t = goto (setDp (setCursor s 0) { s.dp with produced := 0 }) .rxBus) ∨
    (0 ≤ s.dp.rxBudget ∧ s.cursor < s.params.nRx ∧ t = goto s .rxBus) := by
  unfold rxPassTop at h
  split at h
  · rename_i h1
    injection h with h
    exact .inl ⟨h1, h.symm⟩
  · rename_i h1
    split at h
    · rename_i h2
      injection h with h
      exact .inr (.inl ⟨by omega, h2, h.symm⟩)
    · rename_i h2
      injection h with h
      exact .inr (.inr ⟨by omega, by omega, h.symm⟩)

theorem rxBus_cases {s t : State} (h : rxBus s = .next t) :
    (s.params.nRx ≤ s.cursor ∧ t = goto s .rxPassEnd) ∨
    (s.cursor < s.params.nRx ∧ s.periph.bus = .busOff ∧
      t = finish (logCall s .busState) .invalidState s.dp.count) ∨
    (s.cursor < s.params.nRx ∧ s.periph.bus ≠ .busOff ∧
      t = goto (logCall s .busState) .rxTest) := by
  unfold rxBus at h
  split at h
  · rename_i h1
    injection h with h
    exact .inl ⟨h1, h.symm⟩
  · rename_i h1
    dsimp only at h
    split at h
    · rename_i h2
      injection h with h
      exact .inr (.inl ⟨by omega, h2, h.symm⟩)
    · rename_i h2
      injection h with h
      exact .inr (.inr ⟨by omega, h2, h.symm⟩)

theorem rxTest_cases {s t : State} (h : rxTest s = .next t) :
    ∃ slot, slotAt s s.cursor = some slot ∧
      ((slot.full = true ∧ t = goto (logCall s (.rxFull s.cursor)) .rxFilter) ∨
       (slot.full = false ∧
        t = goto (setCursor (logCall s (.rxFull s.cursor)) (s.cursor + 1)) .rxBus)) := by
  unfold rxTest at h
  split at h
  · cases h
  · rename_i slot hs
    refine ⟨slot, hs, ?_⟩
    dsimp only at h
    split at h
    · rename_i h1
      injection h with h
      exact .inl ⟨h1, h.symm⟩
    · rename_i h1
      injection h with h
      exact .inr ⟨by simpa using h1, h.symm⟩

/-- The state after `RX_FILTER` has counted and measured the frame it accepts. -/
def acceptedFrame (s : State) (len : FrameLen) : State :=
  setDp (logCall (logCall s (.rxId s.cursor)) (.rxLen s.cursor))
    { s.dp with produced := cut (cursorWidth s.params) (s.dp.produced + 1), len := len }

theorem rxFilter_cases {s t : State} (h : rxFilter s = .next t) :
    ∃ slot, slotAt s s.cursor = some slot ∧
      ((accept s slot.id = false ∧
        t = goto (setCursor (rxRelease (logCall s (.rxId s.cursor)) s.cursor) (s.cursor + 1))
          .rxBus) ∨
       (accept s slot.id = true ∧ maxFrameLen < slot.len.toNat ∧
        t = raiseFault (acceptedFrame s slot.len) .periphLen
          (s.cursor * 16 + slot.len.toNat)) ∨
       (accept s slot.id = true ∧ slot.len.toNat ≤ maxFrameLen ∧
        s.bufSize < s.dp.count + slot.len.toNat ∧
        t = raiseFault (acceptedFrame s slot.len) .overrun (s.dp.count * 16 + slot.len.toNat)) ∨
       (accept s slot.id = true ∧ slot.len.toNat ≤ maxFrameLen ∧
        s.dp.count + slot.len.toNat ≤ s.bufSize ∧
        t = goto (acceptedFrame s slot.len) .rxCopy)) := by
  unfold rxFilter at h
  split at h
  · cases h
  · rename_i slot hs
    refine ⟨slot, hs, ?_⟩
    dsimp only at h
    split at h
    · rename_i h1
      injection h with h
      exact .inl ⟨by simpa using h1, h.symm⟩
    · rename_i h1
      have h1 : accept s slot.id = true := by simpa using h1
      split at h
      · rename_i h2
        injection h with h
        exact .inr (.inl ⟨h1, h2, h.symm⟩)
      · rename_i h2
        split at h
        · rename_i h3
          injection h with h
          exact .inr (.inr (.inl ⟨h1, by omega, h3, h.symm⟩))
        · rename_i h3
          injection h with h
          exact .inr (.inr (.inr ⟨h1, by omega, by omega, h.symm⟩))

theorem rxCopy_cases {s t : State} (h : rxCopy s = .next t) :
    ∃ slot, slotAt s s.cursor = some slot ∧ s.dp.len.toNat ≤ maxFrameLen ∧
      inSpace s (bufAddr s s.dp.count) s.dp.len.toNat = true ∧
      t = goto
        { s with
          mem := Memory.copyDown (payloadByte s.params slot.lanes s.dp.len.toNat) s.mem
            (bufAddr s s.dp.count) s.dp.len.toNat
          calls := laneCalls s.params s.cursor s.dp.len.toNat ++ s.calls }
        .rxRelease := by
  unfold rxCopy at h
  split at h
  · cases h
  · rename_i slot hs
    dsimp only at h
    split at h
    · cases h
    · rename_i h1
      split at h
      · cases h
      · rename_i h2
        injection h with h
        exact ⟨slot, hs, by omega, by simpa using h2, h.symm⟩

theorem rxReleaseStep_cases {s t : State} (h : rxReleaseStep s = .next t) :
    (∃ slot, slotAt s s.cursor = some slot) ∧
    t = goto (rxRelease s s.cursor) (if echoEn s then .rxEcho else .rxAdvance) := by
  unfold rxReleaseStep at h
  split at h
  · cases h
  · rename_i slot hs
    injection h with h
    exact ⟨⟨slot, hs⟩, h.symm⟩

theorem rxAdvance_cases {s t : State} (h : rxAdvance s = .next t) :
    (complete s (cut s.params.sizeW (s.dp.count + s.dp.len.toNat)) = some true ∧
      t = finish
        (if s.params.advanceOnComplete then
          setCursor (setDp s { s.dp with
            count := cut s.params.sizeW (s.dp.count + s.dp.len.toNat) }) (s.cursor + 1)
         else setDp s { s.dp with count := cut s.params.sizeW (s.dp.count + s.dp.len.toNat) })
        .ok (cut s.params.sizeW (s.dp.count + s.dp.len.toNat))) ∨
    (complete s (cut s.params.sizeW (s.dp.count + s.dp.len.toNat)) = some false ∧
      t = goto
        (setCursor (setDp s { s.dp with
          count := cut s.params.sizeW (s.dp.count + s.dp.len.toNat) }) (s.cursor + 1))
        .rxBus) := by
  unfold rxAdvance at h
  dsimp only at h
  split at h
  · cases h
  · rename_i h1
    injection h with h
    exact .inl ⟨h1, h.symm⟩
  · rename_i h1
    injection h with h
    exact .inr ⟨h1, h.symm⟩

theorem rxPassEnd_cases {s t : State} (h : rxPassEnd s = .next t) :
    (s.dp.produced = 0 ∧
      t = goto
        (setDp (delay s s.params.pollStep)
          { s.dp with rxBudget := spend s.params s.dp.rxBudget }) .rxPassTop) ∨
    (0 < s.dp.produced ∧ t = goto s .rxPassTop) := by
  unfold rxPassEnd at h
  split at h
  · rename_i h1
    injection h with h
    exact .inl ⟨h1, h.symm⟩
  · rename_i h1
    injection h with h
    exact .inr ⟨by omega, h.symm⟩

theorem rxFinal_cases {s t : State} (h : rxFinal s = .next t) :
    (complete s s.dp.count = some true ∧ t = finish s .ok s.dp.count) ∨
    (complete s s.dp.count = some false ∧ t = finish s .timeout s.dp.count) := by
  unfold rxFinal at h
  split at h
  · cases h
  · rename_i h1
    injection h with h
    exact .inl ⟨h1, h.symm⟩
  · rename_i h1
    injection h with h
    exact .inr ⟨h1, h.symm⟩

/-! ## `Complete` -/

theorem memRead_of_lt {s : State} {a : Nat} (h : a < spaceEnd s) :
    memRead s a = some (s.mem.read a) := if_pos h

theorem memRead_congr {s t : State} {a : Nat} (hp : t.params = s.params)
    (hm : t.mem.read a = s.mem.read a) : memRead t a = memRead s a := by
  unfold memRead spaceEnd
  rw [hp, hm]

/-- `Complete` reads the buffer, never the rest of the state. -/
theorem complete_congr {s t : State} (n : Nat) (hp : t.params = s.params) (hm : t.mem = s.mem)
    (hb : t.bufBase = s.bufBase) : complete t n = complete s n := by
  have h : ∀ a, memRead t a = memRead s a := fun a => memRead_congr hp (by rw [hm])
  simp only [complete, bufAddr, hb, h]

/-- With the length field inside the buffer memory, no count below 7 is complete (rule R178). -/
theorem complete_below_seven {s : State} {n : Nat} (hs : bufAddr s 3 < spaceEnd s)
    (hn : n < overhead) : complete s n = some false := by
  have h2 : bufAddr s 2 < spaceEnd s := by simp only [bufAddr] at *; omega
  rw [complete, show lenOffset = 2 from rfl, memRead_of_lt h2, memRead_of_lt hs]
  exact if_pos (by omega)

/-- `Complete` depends on the bytes below the count alone (rule R178). -/
theorem complete_of_agree {s t : State} {n : Nat} (hp : t.params = s.params)
    (hb : t.bufBase = s.bufBase) (hn : overhead ≤ n)
    (hm : ∀ i < n, t.mem.read (bufAddr s i) = s.mem.read (bufAddr s i)) :
    complete t n = complete s n := by
  simp only [overhead] at hn
  have h : ∀ i < n, memRead t (bufAddr t i) = memRead s (bufAddr s i) := by
    intro i hi
    have e : bufAddr t i = bufAddr s i := by simp only [bufAddr, hb]
    rw [e]
    exact memRead_congr hp (hm i hi)
  simp only [complete, lenOffset]
  rw [h 2 (by omega), h 3 (by omega), h 0 (by omega), h (n - 1) (by omega)]

/-- Inside the buffer memory `Complete` answers, and it answers true exactly on a framed packet of
`count` bytes (rule R174). -/
theorem complete_eq {s : State} {n : Nat} (h3 : bufAddr s 3 < spaceEnd s)
    (hn : bufAddr s (n - 1) < spaceEnd s) :
    complete s n = some (decide
      (n = overhead + packetLen (s.mem.read (bufAddr s 2)) (s.mem.read (bufAddr s 3)) ∧
        s.mem.read (bufAddr s 0) = startMarker ∧ s.mem.read (bufAddr s (n - 1)) = endMarker)) := by
  have h2 : bufAddr s 2 < spaceEnd s := by simp only [bufAddr] at *; omega
  have h0 : bufAddr s 0 < spaceEnd s := by simp only [bufAddr] at *; omega
  simp only [complete, lenOffset]
  rw [memRead_of_lt h2, memRead_of_lt h3, memRead_of_lt h0, memRead_of_lt hn]
  simp only [completeFrom]
  by_cases e : n = overhead + packetLen (s.mem.read (bufAddr s 2)) (s.mem.read (bufAddr s 3))
  · rw [if_neg (by simpa using e)]
    refine congrArg some (Bool.eq_iff_iff.2 ?_)
    simp [← e]
  · rw [if_pos e]
    simp [e]

end Sys2Proof.Machine
end

