-- ==== Sys2Proof/Laws/Status.lean ====
section
/-!
SUPPORT. The `STATUS` word as one number: every field at its weight (10_state.md rule R22). A bit or
a field of the word then follows by arithmetic.
-/

namespace Sys2Proof.Machine

theorem toNat_append_add {n m : Nat} (x : BitVec n) (y : BitVec m) :
    (x ++ y).toNat = x.toNat * 2 ^ m + y.toNat := by
  rw [BitVec.toNat_append, ← Nat.shiftLeft_add_eq_or_of_lt y.isLt, Nat.shiftLeft_eq]

theorem statusWord_toNat (s : State) : (statusWord s).toNat =
    s.busy.toNat + 2 * s.fault.toNat + 4 * s.echoErr.toNat + 16 * s.result.code.toNat +
      256 * (lastOpCode s.lastOp).toNat + 65536 * s.fsm.code.toNat := by
  have h : (statusWord s).toNat =
      (0#11 ++ s.fsm.code ++ 0#6 ++ lastOpCode s.lastOp ++ 0#1 ++ s.result.code ++ 0#1 ++
        BitVec.ofBool s.echoErr ++ BitVec.ofBool s.fault ++ BitVec.ofBool s.busy).toNat := rfl
  rw [h]
  simp only [toNat_append_add, BitVec.toNat_ofBool, BitVec.toNat_ofNat]
  omega

end Sys2Proof.Machine
end

