-- ==== Sys2Proof/Laws/Transmit.lean ====
section
/-!
SUPPORT. What each micro-step of WRITE can answer, said once (40_transmit.md rules R121 to R133).
Every lemma has the form "if it answers a next state, then one of these cases holds".
-/

namespace Sys2Proof.Machine

open Sys2Proof.Config

theorem txReturn_host (s : State) (r : Result) (n : Nat) (h : s.dp.txRet = .host) :
    txReturn s r n = finish s r n := by
  simp only [txReturn, h]

theorem txReturn_rx (s : State) (r : Result) (n : Nat) (h : s.dp.txRet = .rx) :
    txReturn s r n = { s with echoErr := s.echoErr || echoFails r, fsm := .rxAdvance } := by
  simp only [txReturn, h]

/-- A polling wait spends one step of the budget and changes no other register. -/
theorem txWait_eq (s : State) :
    txWait s =
      { s with
        dp := { s.dp with txBudget := spend s.params s.dp.txBudget }
        calls :=
          if s.dp.txTimeout = 0 then s.calls else .delay s.params.pollStep :: s.calls } := by
  by_cases h : s.dp.txTimeout = 0 <;> simp [txWait, h, setDp, delay, logCall]

theorem txStart_cases {s t : State} (h : txStart s = .next t) :
    (s.slotTypeOk = false ∧ t = raiseFault s .txSlotType 0) ∨
    (s.slotTypeOk = true ∧ s.dp.txSize = 0 ∧ t = txReturn s (emptyResult s.params) 0) ∨
    (s.slotTypeOk = true ∧ 0 < s.dp.txSize ∧ spaceEnd s < s.dp.txBase + s.dp.txSize ∧
      t = raiseFault s .addrRange s.dp.txBase) ∨
    (s.slotTypeOk = true ∧ 0 < s.dp.txSize ∧ s.dp.txBase + s.dp.txSize ≤ spaceEnd s ∧
      t = goto (setDp s
        { s.dp with txBudget := initialBudget s.dp.txTimeout, txOff := 0 }) .txWaitFree) := by
  unfold txStart at h
  split at h
  · rename_i h1
    injection h with h
    exact .inl ⟨by simpa using h1, h.symm⟩
  · rename_i h1
    have h1 : s.slotTypeOk = true := by simpa using h1
    split at h
    · rename_i h2
      injection h with h
      exact .inr (.inl ⟨h1, h2, h.symm⟩)
    · rename_i h2
      split at h
      · rename_i h3
        injection h with h
        exact .inr (.inr (.inl ⟨h1, by omega, h3, h.symm⟩))
      · rename_i h3
        injection h with h
        exact .inr (.inr (.inr ⟨h1, by omega, by omega, h.symm⟩))

theorem txWaitFree_cases {s t : State} (h : txWaitFree s = .next t) :
    (s.dp.txBudget < 0 ∧ t = txReturn s .timeout s.dp.txOff) ∨
    (0 ≤ s.dp.txBudget ∧ s.periph.tx.busy = false ∧ t = goto (logCall s .txFull) .txLoad) ∨
    (0 ≤ s.dp.txBudget ∧ s.periph.tx.busy = true ∧ t = txWait (logCall s .txFull)) := by
  unfold txWaitFree at h
  split at h
  · rename_i h1
    injection h with h
    exact .inl ⟨h1, h.symm⟩
  · rename_i h1
    dsimp only at h
    split at h
    · rename_i h2
      injection h with h
      exact .inr (.inl ⟨by omega, by simpa using h2, h.symm⟩)
    · rename_i h2
      injection h with h
      exact .inr (.inr ⟨by omega, by simpa using h2, h.symm⟩)

theorem txLoad_cases {s t : State} (h : txLoad s = .next t) :
    inSpace s (s.dp.txBase + s.dp.txOff) (chunkLength s.dp.txSize s.dp.txOff) = true ∧
    t = goto
      (logCall
        (setDp s
          { s.dp with
            chunkLen := BitVec.ofNat 4 (chunkLength s.dp.txSize s.dp.txOff)
            chunk := Memory.loadInto s.mem (s.dp.txBase + s.dp.txOff) s.dp.chunk
              (chunkLength s.dp.txSize s.dp.txOff)
            errSnap := s.periph.tec })
        .txErrCount)
      .txTrigger := by
  unfold txLoad at h
  dsimp only at h
  split at h
  · cases h
  · rename_i h1
    injection h with h
    exact ⟨by simpa using h1, h.symm⟩

theorem txTrigger_eq (s : State) :
    txTrigger s = .next
      { s with
        periph :=
          { s.periph with tx :=
              { busy := true, id := s.txId, len := s.dp.chunkLen, data := chunkData s } }
        calls := .txSend s.txId s.dp.chunkLen (chunkData s) true :: s.calls
        irqMask := false
        fsm := .txPollErr } := rfl

theorem txPollErr_cases {s t : State} (h : txPollErr s = .next t) :
    (s.dp.txBudget < 0 ∧ t = txReturn s .timeout s.dp.txOff) ∨
    (0 ≤ s.dp.txBudget ∧ tecFail s.params s.dp.errSnap s.periph.tec = true ∧
      t = txReturn (logCall s .txErrCount) .timeout s.dp.txOff) ∨
    (0 ≤ s.dp.txBudget ∧ tecFail s.params s.dp.errSnap s.periph.tec = false ∧
      t = goto (logCall s .txErrCount) .txPollFree) := by
  unfold txPollErr at h
  split at h
  · rename_i h1
    injection h with h
    exact .inl ⟨h1, h.symm⟩
  · rename_i h1
    dsimp only at h
    split at h
    · rename_i h2
      injection h with h
      exact .inr (.inl ⟨by omega, h2, h.symm⟩)
    · rename_i h2
      injection h with h
      exact .inr (.inr ⟨by omega, by simpa using h2, h.symm⟩)

theorem txPollFree_cases {s t : State} (h : txPollFree s = .next t) :
    (s.periph.tx.busy = false ∧
      t = goto
        (setDp (logCall s .txFull)
          { s.dp with txOff := cut s.params.sizeW (s.dp.txOff + s.dp.chunkLen.toNat) })
        (if cut s.params.sizeW (s.dp.txOff + s.dp.chunkLen.toNat) = s.dp.txSize then .txFinal
          else .txLoad)) ∨
    (s.periph.tx.busy = true ∧ t = goto (txWait (logCall s .txFull)) .txPollErr) := by
  unfold txPollFree at h
  dsimp only at h
  split at h
  · rename_i h1
    injection h with h
    exact .inl ⟨by simpa using h1, h.symm⟩
  · rename_i h1
    injection h with h
    exact .inr ⟨by simpa using h1, h.symm⟩

theorem txFinal_cases {s t : State} (h : txFinal s = .next t) :
    (txFaultState s.params s.periph.bus = true ∧
      t = txReturn (logCall s .busState) .invalidState s.dp.txSize) ∨
    (txFaultState s.params s.periph.bus = false ∧
      t = txReturn (logCall s .busState) .ok s.dp.txSize) := by
  unfold txFinal at h
  dsimp only at h
  split at h
  · rename_i h1
    injection h with h
    exact .inl ⟨h1, h.symm⟩
  · rename_i h1
    injection h with h
    exact .inr ⟨by simpa using h1, h.symm⟩

end Sys2Proof.Machine
end

