-- ==== Sys2Proof/Laws/Unread.lean ====
section
/-!
SUPPORT. No internal register is read before the command that reads it wrote it (10_state.md rules
R27 and R40): `AgreeIn f d e` says that `d` and `e` agree on every internal register that a
micro-step may still read from the state `f` on, and every micro-step answers the same from both and
keeps it.
-/

namespace Sys2Proof.Machine

open Sys2Proof.Config

/-- They agree on the registers of a READ's scan. -/
abbrev scanAgree (d e : Datapath) : Prop :=
  e.count = d.count ∧ e.produced = d.produced ∧ e.rxBudget = d.rxBudget

/-- And on the length of the frame taken. -/
abbrev frameAgree (d e : Datapath) : Prop := scanAgree d e ∧ e.len = d.len

/-- They agree on the operands of a WRITE, and on its READ's registers if it is an echo. -/
abbrev callAgree (d e : Datapath) : Prop :=
  e.txBase = d.txBase ∧ e.txSize = d.txSize ∧ e.txTimeout = d.txTimeout ∧ e.txRet = d.txRet ∧
  (d.txRet = .rx → frameAgree d e)

/-- And on its budget and offset. -/
abbrev sendAgree (d e : Datapath) : Prop :=
  callAgree d e ∧ e.txBudget = d.txBudget ∧ e.txOff = d.txOff

/-- And on its chunk's length and snapshot. -/
abbrev chunkAgree (d e : Datapath) : Prop :=
  sendAgree d e ∧ e.chunkLen = d.chunkLen ∧ e.errSnap = d.errSnap

/-- They agree on every internal register that may still be read from the state `f` on. -/
def AgreeIn (f : Fsm) (d e : Datapath) : Prop :=
  match f with
  | .idle | .fault | .rxStart => True
  | .rxClear | .rxPassTop | .rxBus | .rxTest | .rxFilter | .rxPassEnd | .rxFinal => scanAgree d e
  | .rxCopy | .rxRelease | .rxEcho | .rxAdvance => frameAgree d e
  | .txStart => callAgree d e
  | .txWaitFree | .txLoad | .txFinal => sendAgree d e
  | .txTrigger =>
    chunkAgree d e ∧
    e.chunk.toList.take e.chunkLen.toNat = d.chunk.toList.take d.chunkLen.toNat
  | .txPollErr | .txPollFree => chunkAgree d e

/-- An outcome is the next state `t` up to internal registers that no rule reads from there on. -/
def Follows (o : Outcome) (t : State) : Prop :=
  ∃ e, o = .next { t with dp := e } ∧ AgreeIn t.fsm t.dp e

theorem follows_of_eq {o o' : Outcome} {t : State} (h : o' = o) (hf : Follows o t) :
    Follows o' t := h ▸ hf

/-- The bytes loaded into a chunk are the memory's, whatever the chunk held. -/
theorem loadInto_take (m : Memory) (base : Nat) (c c' : Lanes) (n : Nat) (h : n ≤ 8) :
    (Memory.loadInto m base c n).toList.take n = (Memory.loadInto m base c' n).toList.take n := by
  induction n with
  | zero => rfl
  | succ n ih =>
    apply List.ext_getElem?
    intro i
    have := congrArg (·[i]?) (ih (by omega))
    simp only [List.getElem?_take] at this ⊢
    simp only [Memory.loadInto, Vector.toList_setIfInBounds, List.getElem?_set] at this ⊢
    by_cases h1 : i = n
    · subst h1; simp
    · have : n ≠ i := fun e => h1 e.symm
      simp only [this, if_false]
      split
      · rw [if_pos (by omega), if_pos (by omega)] at *
        assumption
      · rfl

theorem chunkLength_le (a b : Nat) : chunkLength a b ≤ 8 := Nat.min_le_left _ _

/-- A chunk's length fits its 4-bit register (42_datapath.md rule R176). -/
theorem chunkLength_toNat (a b : Nat) :
    (BitVec.ofNat 4 (chunkLength a b)).toNat = chunkLength a b := by
  have := chunkLength_le a b
  simp; omega

theorem rxStart_agree {s t : State} {d : Datapath} (h : rxStart s = .next t) :
    Follows (rxStart (setDp s d)) t := by
  unfold rxStart at h
  split at h
  · rename_i h1; injection h with h; subst h
    exact ⟨d, if_pos h1, trivial⟩
  split at h
  · rename_i h1 h2; injection h with h; subst h
    exact ⟨d, (if_neg h1).trans (if_pos h2), trivial⟩
  split at h
  · rename_i h1 h2 h3; injection h with h; subst h
    exact ⟨d, (if_neg h1).trans ((if_neg h2).trans (if_pos h3)), trivial⟩
  · rename_i h1 h2 h3; injection h with h; subst h
    exact ⟨_, (if_neg h1).trans ((if_neg h2).trans (if_neg h3)), rfl, rfl, rfl⟩

theorem rxClear_agree {s t : State} {d : Datapath} (ha : scanAgree s.dp d)
    (h : rxClear s = .next t) : Follows (rxClear (setDp s d)) t := by
  unfold rxClear at h
  split at h
  · cases h
  · rename_i h1; injection h with h; subst h
    exact ⟨d, if_neg h1, ha⟩

theorem rxPassTop_agree {s t : State} {d : Datapath} (ha : scanAgree s.dp d)
    (h : rxPassTop s = .next t) : Follows (rxPassTop (setDp s d)) t := by
  obtain ⟨a1, a2, a3, a4, a5, a6, a7, a8, a9, a10, a11, a12, a13⟩ := d
  obtain ⟨rfl, rfl, rfl⟩ := ha
  unfold rxPassTop at h
  split at h
  · rename_i h1; injection h with h; subst h
    exact ⟨_, if_pos h1, rfl, rfl, rfl⟩
  split at h
  · rename_i h1 h2; injection h with h; subst h
    exact ⟨_, (if_neg h1).trans (if_pos h2), rfl, rfl, rfl⟩
  · rename_i h1 h2; injection h with h; subst h
    exact ⟨_, (if_neg h1).trans (if_neg h2), rfl, rfl, rfl⟩

theorem rxBus_agree {s t : State} {d : Datapath} (ha : scanAgree s.dp d) (h : rxBus s = .next t) :
    Follows (rxBus (setDp s d)) t := by
  obtain ⟨a1, a2, a3, a4, a5, a6, a7, a8, a9, a10, a11, a12, a13⟩ := d
  obtain ⟨rfl, rfl, rfl⟩ := ha
  unfold rxBus at h
  split at h
  · rename_i h1; injection h with h; subst h
    exact ⟨_, if_pos h1, rfl, rfl, rfl⟩
  split at h
  · rename_i h1 h2; injection h with h; subst h
    exact ⟨_, (if_neg h1).trans (if_pos h2), trivial⟩
  · rename_i h1 h2; injection h with h; subst h
    exact ⟨_, (if_neg h1).trans (if_neg h2), rfl, rfl, rfl⟩

theorem rxTest_agree {s t : State} {d : Datapath} (ha : scanAgree s.dp d)
    (h : rxTest s = .next t) : Follows (rxTest (setDp s d)) t := by
  unfold rxTest at h
  split at h
  · cases h
  rename_i slot h0
  have h0 : slotAt (setDp s d) (setDp s d).cursor = some slot := h0
  simp only [Follows, rxTest, h0]
  split at h
  · rename_i h1; injection h with h; subst h
    exact ⟨d, if_pos h1, ha⟩
  · rename_i h1; injection h with h; subst h
    exact ⟨d, if_neg h1, ha⟩

theorem rxFilter_agree {s t : State} {d : Datapath} (ha : scanAgree s.dp d)
    (h : rxFilter s = .next t) : Follows (rxFilter (setDp s d)) t := by
  obtain ⟨a1, a2, a3, a4, a5, a6, a7, a8, a9, a10, a11, a12, a13⟩ := d
  obtain ⟨rfl, rfl, rfl⟩ := ha
  unfold rxFilter at h
  split at h
  · cases h
  rename_i slot h0
  have h0 : ∀ d, slotAt (setDp s d) (setDp s d).cursor = some slot := fun _ => h0
  simp only [Follows, rxFilter, h0]
  split at h
  · rename_i h1; injection h with h; subst h
    exact ⟨_, if_pos h1, rfl, rfl, rfl⟩
  dsimp only at h
  split at h
  · rename_i h1 h2; injection h with h; subst h
    exact ⟨_, (if_neg h1).trans (if_pos h2), trivial⟩
  split at h
  · rename_i h1 h2 h3; injection h with h; subst h
    exact ⟨_, (if_neg h1).trans ((if_neg h2).trans (if_pos h3)), trivial⟩
  · rename_i h1 h2 h3; injection h with h; subst h
    exact ⟨_, (if_neg h1).trans ((if_neg h2).trans (if_neg h3)), ⟨rfl, rfl, rfl⟩, rfl⟩

theorem rxCopy_agree {s t : State} {d : Datapath} (ha : frameAgree s.dp d)
    (h : rxCopy s = .next t) : Follows (rxCopy (setDp s d)) t := by
  obtain ⟨a1, a2, a3, a4, a5, a6, a7, a8, a9, a10, a11, a12, a13⟩ := d
  obtain ⟨⟨rfl, rfl, rfl⟩, rfl⟩ := ha
  unfold rxCopy at h
  split at h
  · cases h
  rename_i slot h0
  have h0 : ∀ d, slotAt (setDp s d) (setDp s d).cursor = some slot := fun _ => h0
  simp only [Follows, rxCopy, h0]
  dsimp only at h
  split at h
  · cases h
  rename_i h1
  split at h
  · cases h
  · rename_i h2; injection h with h; subst h
    exact ⟨_, (if_neg h1).trans (if_neg h2), ⟨rfl, rfl, rfl⟩, rfl⟩

theorem rxReleaseStep_agree {s t : State} {d : Datapath} (ha : frameAgree s.dp d)
    (h : rxReleaseStep s = .next t) : Follows (rxReleaseStep (setDp s d)) t := by
  unfold rxReleaseStep at h
  split at h
  · cases h
  rename_i slot h0
  have h0 : ∀ d, slotAt (setDp s d) (setDp s d).cursor = some slot := fun _ => h0
  simp only [Follows, rxReleaseStep, h0]
  injection h with h; subst h
  refine ⟨d, rfl, ?_⟩
  cases h1 : echoEn s <;> simpa [h1, AgreeIn] using ha

theorem rxEcho_agree {s t : State} {d : Datapath} (ha : frameAgree s.dp d)
    (h : rxEcho s = .next t) : Follows (rxEcho (setDp s d)) t := by
  obtain ⟨a1, a2, a3, a4, a5, a6, a7, a8, a9, a10, a11, a12, a13⟩ := d
  obtain ⟨⟨rfl, rfl, rfl⟩, rfl⟩ := ha
  injection h with h; subst h
  exact ⟨_, rfl, rfl, rfl, rfl, rfl, fun _ => ⟨⟨rfl, rfl, rfl⟩, rfl⟩⟩

theorem rxAdvance_agree {s t : State} {d : Datapath} (ha : frameAgree s.dp d)
    (h : rxAdvance s = .next t) : Follows (rxAdvance (setDp s d)) t := by
  obtain ⟨a1, a2, a3, a4, a5, a6, a7, a8, a9, a10, a11, a12, a13⟩ := d
  obtain ⟨⟨rfl, rfl, rfl⟩, rfl⟩ := ha
  unfold rxAdvance at h
  dsimp only at h
  have hc : ∀ d n, complete (setDp s d) n = complete s n := fun _ _ => rfl
  split at h
  · cases h
  · rename_i h0; injection h with h; subst h
    simp only [Follows, rxAdvance, hc, setDp_dp, setDp_params, h0]
    by_cases h1 : s.params.advanceOnComplete = true <;>
      simp only [h1, if_true, if_false, Bool.false_eq_true] <;> exact ⟨_, rfl, trivial⟩
  · rename_i h0; injection h with h; subst h
    simp only [Follows, rxAdvance, hc, setDp_dp, setDp_params, h0]
    exact ⟨_, rfl, rfl, rfl, rfl⟩

theorem rxPassEnd_agree {s t : State} {d : Datapath} (ha : scanAgree s.dp d)
    (h : rxPassEnd s = .next t) : Follows (rxPassEnd (setDp s d)) t := by
  obtain ⟨a1, a2, a3, a4, a5, a6, a7, a8, a9, a10, a11, a12, a13⟩ := d
  obtain ⟨rfl, rfl, rfl⟩ := ha
  unfold rxPassEnd at h
  split at h
  · rename_i h1; injection h with h; subst h
    exact ⟨_, if_pos h1, rfl, rfl, rfl⟩
  · rename_i h1; injection h with h; subst h
    exact ⟨_, if_neg h1, rfl, rfl, rfl⟩

theorem rxFinal_agree {s t : State} {d : Datapath} (ha : scanAgree s.dp d)
    (h : rxFinal s = .next t) : Follows (rxFinal (setDp s d)) t := by
  obtain ⟨a1, a2, a3, a4, a5, a6, a7, a8, a9, a10, a11, a12, a13⟩ := d
  obtain ⟨rfl, rfl, rfl⟩ := ha
  have hc : ∀ d n, complete (setDp s d) n = complete s n := fun _ _ => rfl
  unfold rxFinal at h
  split at h
  · cases h
  all_goals
    rename_i h0; injection h with h; subst h
    simp only [Follows, rxFinal, hc, setDp_dp, h0]
    exact ⟨_, rfl, trivial⟩

theorem txReturn_follows {s : State} {d : Datapath} (r : Result) (n : Nat) (h : callAgree s.dp d) :
    Follows (.next (txReturn (setDp s d) r n)) (txReturn s r n) := by
  obtain ⟨_, _, _, h4, h5⟩ := h
  cases hr : s.dp.txRet
  · exact ⟨d, by simp [txReturn, h4, hr, finish, setDp], by simp [txReturn, hr, finish, AgreeIn]⟩
  · exact ⟨d, by simp [txReturn, h4, hr, setDp], by simpa [txReturn, hr, AgreeIn] using h5 hr⟩

theorem txStart_agree {s t : State} {d : Datapath} (ha : callAgree s.dp d)
    (h : txStart s = .next t) : Follows (txStart (setDp s d)) t := by
  have hb := ha
  obtain ⟨a1, a2, a3, a4, a5, a6, a7, a8, a9, a10, a11, a12, a13⟩ := d
  obtain ⟨rfl, rfl, rfl, rfl, ha⟩ := ha
  unfold txStart at h
  split at h
  · rename_i h1; injection h with h; subst h
    exact ⟨_, if_pos h1, trivial⟩
  split at h
  · rename_i h1 h2; injection h with h; subst h
    exact follows_of_eq ((if_neg h1).trans (if_pos h2)) (txReturn_follows _ _ hb)
  split at h
  · rename_i h1 h2 h3; injection h with h; subst h
    exact ⟨_, (if_neg h1).trans ((if_neg h2).trans (if_pos h3)), trivial⟩
  · rename_i h1 h2 h3; injection h with h; subst h
    exact ⟨_, (if_neg h1).trans ((if_neg h2).trans (if_neg h3)), ⟨rfl, rfl, rfl, rfl, ha⟩, rfl, rfl⟩

theorem txWaitFree_agree {s t : State} {d : Datapath} (hf : s.fsm = .txWaitFree)
    (ha : sendAgree s.dp d) (h : txWaitFree s = .next t) :
    Follows (txWaitFree (setDp s d)) t := by
  obtain ⟨hb, ha'⟩ := ha
  have hb' := hb
  obtain ⟨a1, a2, a3, a4, a5, a6, a7, a8, a9, a10, a11, a12, a13⟩ := d
  obtain ⟨rfl, rfl, rfl, rfl, ha⟩ := hb
  obtain ⟨rfl, rfl⟩ := ha'
  unfold txWaitFree at h
  split at h
  · rename_i h1; injection h with h; subst h
    exact follows_of_eq (if_pos h1) (txReturn_follows _ _ hb')
  dsimp only at h
  split at h
  · rename_i h1 h2; injection h with h; subst h
    exact ⟨_, (if_neg h1).trans (if_pos h2), ⟨rfl, rfl, rfl, rfl, ha⟩, rfl, rfl⟩
  · rename_i h1 h2; injection h with h; subst h
    refine follows_of_eq ((if_neg h1).trans (if_neg h2)) ?_
    simp only [txWait_eq]
    refine ⟨_, rfl, ?_⟩
    simp only [logCall_fsm, hf]
    exact ⟨⟨rfl, rfl, rfl, rfl, ha⟩, rfl, rfl⟩

theorem txLoad_agree {s t : State} {d : Datapath} (ha : sendAgree s.dp d)
    (h : txLoad s = .next t) : Follows (txLoad (setDp s d)) t := by
  obtain ⟨hb, ha'⟩ := ha
  obtain ⟨a1, a2, a3, a4, a5, a6, a7, a8, a9, a10, a11, a12, a13⟩ := d
  obtain ⟨rfl, rfl, rfl, rfl, ha⟩ := hb
  obtain ⟨rfl, rfl⟩ := ha'
  unfold txLoad at h
  dsimp only at h
  split at h
  · cases h
  · rename_i h1; injection h with h; subst h
    refine ⟨_, if_neg h1, ⟨⟨⟨rfl, rfl, rfl, rfl, ha⟩, rfl, rfl⟩, rfl, rfl⟩, ?_⟩
    simp only [goto_dp, logCall_dp, setDp_dp, chunkLength_toNat]
    exact loadInto_take _ _ _ _ _ (chunkLength_le _ _)

theorem txTrigger_agree {s t : State} {d : Datapath}
    (ha : chunkAgree s.dp d ∧
      d.chunk.toList.take d.chunkLen.toNat = s.dp.chunk.toList.take s.dp.chunkLen.toNat)
    (h : txTrigger s = .next t) : Follows (txTrigger (setDp s d)) t := by
  injection h with h; subst h
  obtain ⟨ha, hc⟩ := ha
  have hl : d.chunkLen = s.dp.chunkLen := ha.2.1
  refine ⟨d, ?_, ha⟩
  rw [txTrigger_eq]
  simp only [chunkData, setDp_dp, hc]
  rw [hl]
  rfl

theorem txPollErr_agree {s t : State} {d : Datapath} (ha : chunkAgree s.dp d)
    (h : txPollErr s = .next t) : Follows (txPollErr (setDp s d)) t := by
  obtain ⟨⟨hb, ho⟩, hc⟩ := ha
  have hb' := hb
  obtain ⟨a1, a2, a3, a4, a5, a6, a7, a8, a9, a10, a11, a12, a13⟩ := d
  obtain ⟨rfl, rfl, rfl, rfl, ha⟩ := hb
  obtain ⟨rfl, rfl⟩ := ho
  obtain ⟨rfl, rfl⟩ := hc
  unfold txPollErr at h
  split at h
  · rename_i h1; injection h with h; subst h
    exact follows_of_eq (if_pos h1) (txReturn_follows _ _ hb')
  dsimp only at h
  split at h
  · rename_i h1 h2; injection h with h; subst h
    exact follows_of_eq ((if_neg h1).trans (if_pos h2))
      (txReturn_follows (s := logCall s .txErrCount) _ _ hb')
  · rename_i h1 h2; injection h with h; subst h
    exact ⟨_, (if_neg h1).trans (if_neg h2), ⟨⟨rfl, rfl, rfl, rfl, ha⟩, rfl, rfl⟩, rfl, rfl⟩

theorem txPollFree_agree {s t : State} {d : Datapath} (ha : chunkAgree s.dp d)
    (h : txPollFree s = .next t) : Follows (txPollFree (setDp s d)) t := by
  obtain ⟨⟨hb, ho⟩, hc⟩ := ha
  obtain ⟨a1, a2, a3, a4, a5, a6, a7, a8, a9, a10, a11, a12, a13⟩ := d
  obtain ⟨rfl, rfl, rfl, rfl, ha⟩ := hb
  obtain ⟨rfl, rfl⟩ := ho
  obtain ⟨rfl, rfl⟩ := hc
  unfold txPollFree at h
  dsimp only at h
  split at h
  · rename_i h1; injection h with h; subst h
    refine ⟨_, if_pos h1, ?_⟩
    dsimp only [goto]
    split <;> exact ⟨⟨rfl, rfl, rfl, rfl, ha⟩, rfl, rfl⟩
  · rename_i h1; injection h with h; subst h
    refine follows_of_eq (if_neg h1) ?_
    simp only [txWait_eq]
    exact ⟨_, rfl, ⟨⟨rfl, rfl, rfl, rfl, ha⟩, rfl, rfl⟩, rfl, rfl⟩

theorem txFinal_agree {s t : State} {d : Datapath} (ha : sendAgree s.dp d)
    (h : txFinal s = .next t) : Follows (txFinal (setDp s d)) t := by
  have hz : d.txSize = s.dp.txSize := ha.1.2.1
  unfold txFinal at h
  dsimp only at h
  split at h
  all_goals
    rename_i h1; injection h with h; subst h
    simp only [Follows, txFinal, setDp_params, setDp_periph, setDp_dp, h1, hz, if_true]
    exact txReturn_follows (s := logCall s .busState) _ _ ha.1

/-- Every micro-step answers the same whatever the registers hold that no rule reads any more. -/
theorem microStep_agree {s t : State} {d : Datapath} (ha : AgreeIn s.fsm s.dp d)
    (h : microStep s = .next t) : Follows (microStep (setDp s d)) t := by
  unfold microStep at h ⊢
  simp only [setDp_fsm]
  cases hf : s.fsm <;> simp only [hf] at h ha ⊢
  case idle => injection h with h; subst h; exact ⟨d, rfl, by simp only [hf, AgreeIn]⟩
  case fault => injection h with h; subst h; exact ⟨d, rfl, by simp only [hf, AgreeIn]⟩
  case rxStart => exact rxStart_agree h
  case rxClear => exact rxClear_agree ha h
  case rxPassTop => exact rxPassTop_agree ha h
  case rxBus => exact rxBus_agree ha h
  case rxTest => exact rxTest_agree ha h
  case rxFilter => exact rxFilter_agree ha h
  case rxCopy => exact rxCopy_agree ha h
  case rxRelease => exact rxReleaseStep_agree ha h
  case rxEcho => exact rxEcho_agree ha h
  case rxAdvance => exact rxAdvance_agree ha h
  case rxPassEnd => exact rxPassEnd_agree ha h
  case rxFinal => exact rxFinal_agree ha h
  case txStart => exact txStart_agree ha h
  case txWaitFree => exact txWaitFree_agree hf ha h
  case txLoad => exact txLoad_agree ha h
  case txTrigger => exact txTrigger_agree ha h
  case txPollErr => exact txPollErr_agree ha h
  case txPollFree => exact txPollFree_agree ha h
  case txFinal => exact txFinal_agree ha h

/-- Which command runs is the same too. -/
theorem running_agree {s : State} {d : Datapath} (ha : AgreeIn s.fsm s.dp d) :
    running (setDp s d) = running s := by
  unfold running
  simp only [setDp_fsm, setDp_dp]
  cases hf : s.fsm <;> simp only [hf, AgreeIn] at ha ⊢ <;>
    first
      | rw [ha.2.2.2.1]
      | rw [ha.1.2.2.2.1]
      | rw [ha.1.1.2.2.2.1]
      | rw [ha.1.1.1.2.2.2.1]

end Sys2Proof.Machine
end

