-- ==== Sys2Proof/Tests/Slice0.lean ====
section
/-!
SUPPORT. Tests on small states, with expected results from the spec (95_test_vectors.md and the rule
each names), and for every statement with hypotheses a state that meets them together.
-/

namespace Sys2Proof.Tests

open Sys2Proof Sys2Proof.Machine Sys2Proof.Config Sys2Proof.Safety

/-! ## Well-formed parameters (00_scope.md rule R8) -/

theorem test_default_params_ok : defaultParams.ok = true := by decide

theorem test_no_slot_refused : ({ defaultParams with nRx := 0 } : Params).ok = false := by decide

theorem test_no_poll_step_refused : ({ defaultParams with pollStep := 0 } : Params).ok = false := by
  decide

theorem test_narrow_size_refused : ({ defaultParams with sizeW := 3 } : Params).ok = false := by
  decide

theorem test_missing_tx_slot_refused : ({ defaultParams with txSlot := 1 } : Params).ok = false := by
  decide

theorem test_instr_well_formed : Instr.read.wellFormed && Instr.write.wellFormed := by decide

/-! ## Command words, bit by bit (30_encoding.md rules R90 and R94; V-HST-1, V-HST-2) -/

theorem test_decode_read : decode 0b00000000000000000000000000000001#32 = .instr .read := by decide

theorem test_decode_write : decode 0b00000000000000000000000000000010#32 = .instr .write := by
  decide

theorem test_decode_op_three :
    decode 0b00000000000000000000000000000011#32 = .illegal (.illegalCmd 3#32) := by decide

theorem test_decode_reserved_bit :
    decode 0b00000000000000000000000100000001#32 = .illegal (.illegalCmd 0x101#32) := by decide

theorem test_table_words :
    decodeTableWord 32 1 = some .read ∧ decodeTableWord 32 2 = some .write ∧
    decodeTableWord 32 0 = none := by decide

/-! ## Small states -/

/-- The next state of an outcome, if it is one. -/
def after (o : Machine.Outcome) : Option State :=
  match o with
  | .next t => some t
  | .fault _ => none
  | .refused _ => none

/-- Small parameters: 2 receive slots, 64 bytes of buffer memory, 5-bit sizes. -/
def params : Params :=
  { defaultParams with nRx := 2, pollStep := 4, addrW := 6, sizeW := 5, timeoutW := 2, tecW := 2 }

/-- The lanes of frame 1 of program P2 (95_test_vectors.md). -/
def lanes : Lanes := #v[0x00, 0x05, 0x31, 0x01, 0xD3, 0xD2, 0xD1, 0xD0]

/-- A full slot that holds a frame of length `n`. -/
def full (n : FrameLen) : RxSlot := { full := true, id := 0x0A0, len := n, lanes := lanes }

/-- An idle block with a buffer of 16 bytes at address 8, timeout 1 and `TX_ID` 0x050, its
peripheral with a full slot 0 and an empty slot 1. -/
def idle : State :=
  { State.resetWith params with
    bufBase := 8, bufSize := 16, timeout := 1, txId := 0x050
    periph := { Peripheral.quiet params with slots := [full 8, RxSlot.blank] } }

/-- The same block in state `f` of a READ with budget 10. -/
def reading (f : Fsm) : State :=
  { idle with
    busy := true, lastOp := some .read, fsm := f
    dp := { idle.dp with rxBudget := 10, len := 8, txRet := .rx } }

/-- The same block in state `f` of a host WRITE with budget 10. -/
def writing (f : Fsm) : State :=
  { idle with
    busy := true, lastOp := some .write, fsm := f
    dp := { idle.dp with
      txBase := 8, txSize := 16, txTimeout := 1, txBudget := 10, chunkLen := 8, txRet := .host } }

/-- The block in state `f` of the echo of the 8 bytes a READ just copied. -/
def echoing (f : Fsm) : State :=
  { reading f with
    config := 4
    dp := { (reading f).dp with
      produced := 1, txBase := 8, txSize := 8, txTimeout := 0, txBudget := 0, chunkLen := 8 } }

/-- The transmit slot of a state made busy. -/
def occupied (s : State) : State :=
  { s with periph := { s.periph with tx := { s.periph.tx with busy := true } } }

/-- The bus of a state moved. -/
def onBus (s : State) (b : Bus) : State := { s with periph := { s.periph with bus := b } }

/-- A faulted block. -/
def stopped : State := faulted idle .rxSize 5

/-- A state with its next turns set. -/
def turns (s : State) (l : List Turn) : State := { s with agenda := l }

/-- The first `l.length` bytes of the buffer set to `l`. -/
def holding (l : List Byte) (s : State) : State :=
  { s with mem := (List.range l.length).foldl (fun m i => m.write (s.bufBase + i) (l.getD i 0)) s.mem }

/-- The packet of V-BND-1, and one byte less of it. -/
def packet : List Byte := [0x01, 0x30, 0x00, 0x00, 0xC1, 0xC2, 0x17]

/-! ## One step of each command, and the host port -/

/-- V-RX-2 with `BUF_SIZE = 5`. -/
theorem test_read_short_buffer :
    after (exec .read { reading .rxStart with bufSize := 5 }) = some
      (faulted { reading .rxStart with bufSize := 5 } .rxSize 5) := by decide

/-- The slot of program P2's first frame, copied: `01 31 05 00 D0 D1 D2 D3`. -/
theorem test_read_copies_the_frame :
    after (exec .read (reading .rxCopy)) =
      some
        { reading .rxCopy with
          fsm := .rxRelease
          mem := [(8, 0x01), (9, 0x31), (10, 0x05), (12, 0xD0), (13, 0xD1), (14, 0xD2), (15, 0xD3)]
          calls := [.rxLane 0 3, .rxLane 0 2, .rxLane 0 1, .rxLane 0 0, .rxLane 0 7, .rxLane 0 6,
            .rxLane 0 5, .rxLane 0 4] } := by decide

/-- V-TX-2: the slot type is checked before the size. -/
theorem test_write_wrong_slot_type :
    after (exec .write { writing .txStart with slotTypeOk := false }) = some
      (faulted { writing .txStart with slotTypeOk := false } .txSlotType 0) := by decide

/-- V-TX-12: the error test comes before the slot test. -/
theorem test_write_error_before_free :
    after (exec .write { writing .txPollErr with periph := { idle.periph with tec := 1 } }) =
      some (ended { writing .txPollErr with
        periph := { idle.periph with tec := 1 }, calls := [.txErrCount] } .timeout 0) := by decide

/-- V-TX-2's and a finished READ's `STATUS` words. -/
theorem test_status_words :
    statusWord { idle with fsm := .fault, lastOp := some .write, fault := true } = 0x001F0202 ∧
    statusWord { idle with lastOp := some .read, result := .ok } = 0x00000110 := by decide

/-- V-HST-5 and V-HST-6. -/
theorem test_host_refusals :
    after (hostWrite idle 0x04 4 0) = some (faulted idle .hostAccess 0x04) ∧
    after (hostWrite idle 0x09 1 0) = some (faulted idle .hostAccess 0x09) := by decide

/-- V-HST-8: `TX_ID` keeps 11 bits. -/
theorem test_tx_id_width :
    after (hostWrite idle 0x24 4 0xFFFFFFFF) = some { idle with txId := 0x7FF } := by decide

/-! ## Datapath units -/

/-- V-SWP-5 under both readings, lanes numbered. -/
theorem test_swap_five :
    (List.range 5).map (payloadByte params #v[0, 1, 2, 3, 4, 5, 6, 7] 5) = [3, 2, 1, 0, 7] ∧
    (List.range 5).map (payloadByte { params with swapPartial := .presentOnly }
      #v[0, 1, 2, 3, 4, 5, 6, 7] 5) = [3, 2, 1, 0, 4] := by decide

/-- V-BND-1, V-BND-2 and V-BND-10. -/
theorem test_boundary :
    complete (holding packet idle) 7 = some true ∧
    complete (holding packet idle) 6 = some false ∧ complete idle 0 = some false := by decide

/-- V-FLT-3, V-FLT-5 and V-FLT-6. -/
theorem test_filter :
    accept { idle with config := 1, ownId := 0x123, bcastId := 0x7FF } 0x123 = true ∧
    accept { idle with config := 1, ownId := 0x123, bcastId := 0x7FF } 0x7FF = false ∧
    accept { idle with config := 3, ownId := 0x123, bcastId := 0x7FF } 0x7FF = true := by decide

/-- V-CHK-6. -/
theorem test_chunks :
    chunkCount 17 = 3 ∧ [0, 8, 16].map (chunkLength 17) = [8, 8, 1] := by decide

/-! ## Memory -/

theorem test_reset_memory_wf : State.reset.mem.wf := by decide

theorem test_memory_canonical :
    Memory.write (Memory.write [] 5 0x17) 3 0x01 = [(3, 0x01), (5, 0x17)] ∧
    Memory.write [(3, 0x01), (5, 0x17)] 3 0x00 = [(5, 0x17)] := by decide

/-! ## What the host asks of the first instruction after reset -/

theorem test_first_command :
    after (step (State.reset.withFetchWord 32 1)) =
      some { State.reset with busy := true, lastOp := some .read, fsm := .rxStart } ∧
    after (step (State.reset.withFetchWord 32 2)) =
      some { State.reset with busy := true, lastOp := some .write, fsm := .txStart } := by decide

/-! ## For every statement with hypotheses, a state that meets them

One theorem for each statement, named after it. Where a statement has several clauses, its theorem
has a conjunct for each, at a boundary of its range. -/

theorem witness_DecodeAndEncodeAgree :
    Instr.write.wellFormed = true ∧ decode 0x00000002#32 = .instr .write := by decide

theorem witness_CommandWriteIsDecoded (w : Word) :
    fits (turns idle [cmdWrite params w]) = true ∧ ready (turns idle [cmdWrite params w]) ∧
    (turns idle [cmdWrite params w]).agenda =
      cmdWrite (turns idle [cmdWrite params w]).params w :: [] :=
  ⟨rfl, ⟨rfl, rfl, rfl⟩, rfl⟩

theorem witness_CommandsStartWhenIdle : ready idle := by decide

theorem witness_StepRunsTheDecodedCommand :
    (∀ s ∈ [turns idle [cmdWrite params 1], { idle with refrain := [cmdWrite params 1] }],
      fits s = true ∧ ready s ∧ nextTurn s = cmdWrite s.params 1 ∧ decode 1 = .instr .read) ∧
    (fits (echoing .txLoad) = true ∧ running (echoing .txLoad) = some .read ∧
      nextTurn (echoing .txLoad) = .block ∧ (echoing .txLoad).agenda = [] ∧
      (echoing .txLoad).refrain = []) ∧
    (∀ s ∈ [turns (writing .txLoad) [.block], { writing .txLoad with refrain := [.block] }],
      fits s = true ∧ running s = some .write ∧ nextTurn s = .block ∧
      (s.agenda = .block :: [] ∨ s.agenda = [] ∧ s.refrain = .block :: [])) := by decide

theorem witness_HostAccessFollowsItsOrder :
    (∀ offset ∈ [0x00, 0x04, 0x08, 0x0C, 0x10, 0x14, 0x18, 0x1C, 0x20, 0x24, 0x28, 0x30, 0x34],
      offset % 4 = 0 ∧
      ∀ s ∈ [stopped, reading .rxBus, idle], fits (turns s [wr params offset 1]) = true ∧
        (turns s [wr params offset 1]).agenda =
          .host (.regWrite (s.params.regBase + offset) 4 1) :: []) ∧
    (stopped.fault = true ∧ (reading .rxBus).fault = false ∧ (reading .rxBus).busy = true ∧
      idle.fault = false ∧ idle.busy = false) ∧
    decode 1 = .instr .read ∧ decode 3 = .illegal (.illegalCmd 3) ∧
    (turns idle [rd params 0x34]).agenda = .host (.regRead (idle.params.regBase + 0x34) 4) :: [] ∧
    0x04 ∉ [0x00, 0x08, 0x0C, 0x10, 0x18, 0x1C, 0x20, 0x24] := by decide

theorem witness_MisshapenAccessFaults :
    fits (turns idle [.host (.regWrite 0x08 1 0)]) = true ∧ idle.fault = false ∧
    (fits (turns stopped [.host (.regRead 0x09 4)]) = true ∧ stopped.fault = true) ∧
    (turns idle [.host (.regWrite 0x08 1 0)]).agenda =
      .host (.regWrite (idle.params.regBase + 0x08) 1 0) :: [] ∧
    (turns idle [.host (.regRead 0x09 4)]).agenda =
      .host (.regRead (idle.params.regBase + 0x09) 4) :: [] ∧ 0x09 % 4 ≠ 0 ∧
    (turns idle [rd params 0x34]).agenda = .host (.regRead (idle.params.regBase + 0x34) 4) :: [] ∧
    0x30 < 0x34 ∧ 0x34 % 4 = 0 := by decide

theorem witness_WrittenRegisterReadsBack :
    fits (turns idle [wr params 0x0C 0xFFFFFFFF, rd params 0x0C]) = true ∧
    ready (turns idle [wr params 0x0C 0xFFFFFFFF, rd params 0x0C]) ∧
    (0x0C, 5) ∈ [(0x08, params.addrW), (0x0C, params.sizeW), (0x10, params.timeoutW), (0x18, 3),
      (0x1C, 11), (0x20, 11), (0x24, 11)] := by decide

theorem witness_RxStartChecksTheBuffer :
    ((reading .rxStart).fsm = .rxStart ∧ (reading .rxStart).fault = false) ∧
    ({ reading .rxStart with bufSize := 0 } : State).bufSize = 0 ∧
    (∀ n ∈ [1, 7], 0 < ({ reading .rxStart with bufSize := n } : State).bufSize ∧
      ({ reading .rxStart with bufSize := n } : State).bufSize < 8) ∧
    (8 ≤ ({ reading .rxStart with bufBase := 49 } : State).bufSize ∧
      2 ^ params.addrW < 49 + ({ reading .rxStart with bufBase := 49 } : State).bufSize) ∧
    48 + (reading .rxStart).bufSize ≤ 2 ^ params.addrW := by decide

theorem witness_RxClearZeroesTheBuffer :
    (reading .rxClear).fsm = .rxClear ∧ (holding packet (reading .rxClear)).mem.wf ∧
    ({ reading .rxClear with bufBase := 48 } : State).bufBase + (reading .rxClear).bufSize ≤
      2 ^ params.addrW := by decide

theorem witness_RxPassTopWrapsTheCursor :
    (reading .rxPassTop).fsm = .rxPassTop ∧ 0 ≤ (reading .rxPassTop).dp.rxBudget ∧
    (reading .rxPassTop).cursor < params.nRx ∧
    params.nRx ≤ ({ reading .rxPassTop with cursor := 2 } : State).cursor ∧
    ({ reading .rxPassTop with dp := { idle.dp with rxBudget := -1 } } : State).dp.rxBudget < 0 := by
  decide

theorem witness_RxBusEndsTheReadOnBusOff :
    (reading .rxBus).fsm = .rxBus ∧ (reading .rxBus).dp.count < 2 ^ params.sizeW ∧
    params.nRx ≤ ({ reading .rxBus with cursor := 2 } : State).cursor ∧
    ((onBus (reading .rxBus) .busOff).cursor < params.nRx ∧
      (onBus (reading .rxBus) .busOff).periph.bus = .busOff) ∧
    (reading .rxBus).periph.bus ≠ .busOff := by decide

theorem witness_RxTestExaminesTheSlot :
    (reading .rxTest).fsm = .rxTest ∧
    ((reading .rxTest).cursor < params.nRx ∧
      (reading .rxTest).periph.slots[(reading .rxTest).cursor]? = some (full 8) ∧
      (full 8).full = true) ∧
    (({ reading .rxTest with cursor := 1 } : State).cursor < params.nRx ∧
      ({ reading .rxTest with cursor := 1 } : State).periph.slots[1]? = some RxSlot.blank ∧
      RxSlot.blank.full = false) := by decide

theorem witness_RxFilterTakesOrRejectsTheFrame :
    (∀ s ∈ [reading .rxFilter, { reading .rxFilter with dp := { idle.dp with count := 9 } }],
      s.fsm = .rxFilter ∧ s.fault = false ∧ s.cursor < s.params.nRx ∧ s.dp.produced ≤ s.cursor ∧
      s.periph.slots[s.cursor]? = some (full 8) ∧ Accepts s (full 8).id ∧
      (full 8).len.toNat ≤ 8) ∧
    (reading .rxFilter).dp.count + 8 ≤ (reading .rxFilter).bufSize ∧
    (reading .rxFilter).bufSize < 9 + 8 ∧
    (∀ s ∈ [{ reading .rxFilter with periph := { idle.periph with slots := [full 9] } }],
      s.fsm = .rxFilter ∧ s.fault = false ∧ s.cursor < s.params.nRx ∧ s.dp.produced ≤ s.cursor ∧
      s.periph.slots[s.cursor]? = some (full 9) ∧ Accepts s (full 9).id ∧
      8 < (full 9).len.toNat) ∧
    ¬ Accepts { reading .rxFilter with config := 1 } (full 8).id := by decide

theorem witness_RxCopyStoresTheCorrectedPayload :
    (reading .rxCopy).fsm = .rxCopy ∧ (reading .rxCopy).mem.wf ∧
    (reading .rxCopy).dp.len.toNat ≤ 8 ∧
    (reading .rxCopy).periph.slots[(reading .rxCopy).cursor]? = some (full 8) ∧
    (reading .rxCopy).bufBase + (reading .rxCopy).dp.count + (reading .rxCopy).dp.len.toNat ≤
      2 ^ params.addrW ∧
    params.swapPartial = .fixedLanes ∧
    ({ params with swapPartial := .presentOnly } : Params).swapPartial = .presentOnly := by decide

theorem witness_RxReleaseFreesTheSlot :
    (reading .rxRelease).fsm = .rxRelease ∧
    (reading .rxRelease).periph.slots[(reading .rxRelease).cursor]? = some (full 8) ∧
    (reading .rxRelease).config.getLsbD 2 = false ∧
    ({ reading .rxRelease with config := 4 } : State).config.getLsbD 2 = true := by decide

theorem witness_RxEchoSetsUpTheNestedWrite :
    (reading .rxEcho).fsm = .rxEcho ∧ (reading .rxEcho).dp.len.toNat < 2 ^ params.sizeW ∧
    (reading .rxEcho).bufBase + (reading .rxEcho).dp.count < 2 ^ params.addrW := by decide

/-- `RX_ADVANCE` on the packet of V-BND-1, taken as one frame of 7 bytes. -/
def completing : State :=
  { holding packet (reading .rxAdvance) with dp := { (reading .rxAdvance).dp with len := 7 } }

theorem witness_RxAdvanceEndsOnACompletePacket :
    (completing.fsm = .rxAdvance ∧ completing.cursor < completing.params.nRx ∧
      completing.dp.count + completing.dp.len.toNat < 2 ^ completing.params.sizeW ∧
      PacketReadable completing (completing.dp.count + completing.dp.len.toNat) ∧
      IsPacket completing (completing.dp.count + completing.dp.len.toNat)) ∧
    completing.params.advanceOnComplete = true ∧
    ({ params with advanceOnComplete := false } : Params).advanceOnComplete = false ∧
    ((reading .rxAdvance).cursor < params.nRx ∧
      PacketReadable (reading .rxAdvance) 8 ∧ ¬ IsPacket (reading .rxAdvance) 8) := by decide

theorem witness_RxPassEndSpendsOnlyOnAnIdlePass :
    (reading .rxPassEnd).fsm = .rxPassEnd ∧ (reading .rxPassEnd).dp.produced = 0 ∧
    0 < ({ reading .rxPassEnd with dp := { idle.dp with produced := 1 } } : State).dp.produced := by
  decide

theorem witness_RxFinalChecksOnceMore :
    (reading .rxFinal).fsm = .rxFinal ∧ (reading .rxFinal).dp.count < 2 ^ params.sizeW ∧
    PacketReadable (reading .rxFinal) (reading .rxFinal).dp.count ∧
    ¬ IsPacket (reading .rxFinal) (reading .rxFinal).dp.count ∧
    PacketReadable (holding packet (reading .rxFinal)) 7 ∧
    IsPacket (holding packet (reading .rxFinal)) 7 := by decide

theorem witness_TxStartChecksItsOperands :
    (running (writing .txStart) = some .write ∧ running (echoing .txStart) = some .read ∧
      (writing .txStart).fsm = .txStart ∧ (writing .txStart).fault = false) ∧
    ({ writing .txStart with slotTypeOk := false } : State).slotTypeOk = false ∧
    ((writing .txStart).slotTypeOk = true ∧ params.writeEmptyStatus = .empty ∧
      ({ writing .txStart with dp := { idle.dp with txSize := 0 } } : State).dp.txSize = 0) ∧
    (0 < (writing .txStart).dp.txSize ∧ 48 + (writing .txStart).dp.txSize ≤ 2 ^ params.addrW ∧
      2 ^ params.addrW < 49 + (writing .txStart).dp.txSize) := by decide

theorem witness_TxWaitFreePollsTheSlot :
    (running (writing .txWaitFree) = some .write ∧ (writing .txWaitFree).fsm = .txWaitFree) ∧
    0 ≤ (writing .txWaitFree).dp.txBudget ∧ (writing .txWaitFree).periph.tx.busy = false ∧
    ((occupied (writing .txWaitFree)).periph.tx.busy = true ∧
      (occupied (writing .txWaitFree)).dp.txTimeout ≠ 0) ∧
    (running (occupied (echoing .txWaitFree)) = some .read ∧
      0 ≤ (echoing .txWaitFree).dp.txBudget ∧ (echoing .txWaitFree).dp.txTimeout = 0) ∧
    ({ writing .txWaitFree with dp := { idle.dp with txBudget := -4 } } : State).dp.txBudget < 0 := by
  decide

theorem witness_TxLoadReadsTheNextChunk :
    ∀ s ∈ [writing .txLoad, echoing .txLoad], (running s).isSome = true ∧ s.fsm = .txLoad ∧
      s.dp.txOff < s.dp.txSize ∧ s.dp.txBase + s.dp.txSize ≤ 2 ^ s.params.addrW := by decide

theorem witness_TxTriggerSendsUnderTheMask :
    running (writing .txTrigger) = some .write ∧ (writing .txTrigger).fsm = .txTrigger := by decide

theorem witness_TxPollErrFailsOnTheCounter :
    (running (writing .txPollErr) = some .write ∧ (writing .txPollErr).fsm = .txPollErr) ∧
    params.tecFailOn = .change ∧ (writing .txPollErr).periph.tec = (writing .txPollErr).dp.errSnap ∧
    0 ≤ (writing .txPollErr).dp.txBudget ∧
    ({ idle.periph with tec := 3 } : Peripheral).tec ≠ (writing .txPollErr).dp.errSnap ∧
    ({ writing .txPollErr with dp := { idle.dp with txBudget := -1 } } : State).dp.txBudget < 0 := by
  decide

theorem witness_TxPollFreeCompletesTheChunk :
    (running (writing .txPollFree) = some .write ∧ (writing .txPollFree).fsm = .txPollFree ∧
      (writing .txPollFree).dp.txOff + (writing .txPollFree).dp.chunkLen.toNat < 2 ^ params.sizeW) ∧
    ((writing .txPollFree).periph.tx.busy = false ∧
      (writing .txPollFree).dp.txOff + (writing .txPollFree).dp.chunkLen.toNat ≠
        (writing .txPollFree).dp.txSize) ∧
    (running (echoing .txPollFree) = some .read ∧
      (echoing .txPollFree).dp.txOff + (echoing .txPollFree).dp.chunkLen.toNat =
        (echoing .txPollFree).dp.txSize) ∧
    ((occupied (echoing .txPollFree)).periph.tx.busy = true ∧
      (echoing .txPollFree).dp.txTimeout = 0) ∧
    (writing .txPollFree).dp.txTimeout ≠ 0 := by decide

theorem witness_TxFinalChecksTheBus :
    running (writing .txFinal) = some .write ∧ (writing .txFinal).fsm = .txFinal ∧
    params.txFaultStates = .busOffOnly ∧ (writing .txFinal).periph.bus ≠ .busOff ∧
    (onBus (writing .txFinal) .busOff).periph.bus = .busOff := by decide

theorem witness_WriteReturnsToItsCaller :
    Result.timeout ≠ .none ∧ 31 < 2 ^ params.sizeW ∧ (writing .txFinal).dp.txRet = .host ∧
    (echoing .txFinal).dp.txRet = .rx ∧ Result.invalidState ≠ .ok ∧ Result.invalidState ≠ .empty := by
  decide

theorem witness_TransmitterFrame :
    ∀ s ∈ [writing .txTrigger, echoing .txPollErr],
      (running s).isSome = true ∧ writeRuns s = true ∧
      (after (exec .write (writing .txTrigger))).isSome = true ∧
      (after (exec .read (echoing .txPollErr))).isSome = true := by decide

theorem witness_ReceiverFrame :
    ∀ f ∈ [Fsm.rxClear, .rxCopy, .rxFilter, .rxEcho, .rxPassEnd],
      running (reading f) = some .read ∧ writeRuns (reading f) = false ∧ (reading f).mem.wf ∧
      (after (exec .read (reading f))).isSome = true := by decide

theorem witness_FaultIsLeftOnlyByReset :
    (stopped.fault = true ∧ stopped.fsm = .fault ∧ (after (step stopped)).isSome = true ∧
      nextTurn stopped ≠ .reset) ∧
    (fits (turns stopped [wr params 0x0C 16]) = true ∧
      (turns stopped [wr params 0x0C 16]).agenda =
        .host (.regWrite (params.regBase + 0x0C) 4 16) :: []) ∧
    (turns stopped [rd params 0x2C]).agenda =
      .host (.regRead (params.regBase + 0x2C) 4) :: [] ∧
    ((turns stopped [.host (.regRead 0x09 4)]).agenda =
        .host (.regRead (params.regBase + 0x09) 4) :: [] ∧
      stopped.busy = false ∧ stopped.irqMask = false ∧ 0x09 % 4 ≠ 0) ∧
    (fits (turns stopped [.reset]) = true ∧ (turns stopped [.reset]).agenda = .reset :: []) ∧
    (∀ s ∈ [stopped, turns stopped [.block], { stopped with refrain := [.block] }],
      fits s = true ∧ nextTurn s = .block) := by decide

theorem witness_FaultEntryKeepsTheFirstCause : idle.fault = false ∧ stopped.fault = true := by
  decide

theorem witness_ResetLeavesTheResetValues :
    fits (turns (writing .txPollErr) [.reset]) = true ∧
    (turns (writing .txPollErr) [.reset]).agenda = .reset :: [] ∧
    ready (turns idle [cmdWrite params readWord]) ∧
    (after (run 3 (turns idle [cmdWrite params readWord]))).map (·.fsm) = some .rxPassTop := by decide

theorem witness_EnvironmentMovesAsItsLawsAllow :
    fits (turns idle [.env .txFree]) = true ∧
    idle.params.nRx ≤ 2 ∧
    (idle.periph.slots[0]? = some (full 8) ∧ (full 8).full = true) ∧
    (idle.periph.slots[1]? = some RxSlot.blank ∧ RxSlot.blank.full = false) ∧
    idle.periph.tx.busy = false ∧ (occupied idle).periph.tx.busy = true ∧
    (3 < 2 ^ params.tecW ∧ 2 ^ params.tecW ≤ 4) ∧ idle.periph.bus ≠ .busOff ∧
    (onBus idle .busOff).periph.bus = .busOff ∧ writeRuns (echoing .txFinal) = true ∧
    writeRuns idle = false := by decide

theorem witness_FullSlotIsStableUntilReleased :
    (reading .rxRelease).periph.slots[0]? = some (full 8) ∧ (full 8).full = true ∧
    (after (step (reading .rxRelease))).isSome = true ∧
    (after (step (turns idle [.host (.periphReset (Peripheral.quiet params))]))).isSome = true := by
  decide

theorem witness_BusOffIsStickyUntilPeripheralReset :
    (onBus idle .busOff).periph.bus = .busOff ∧
    (after (step (turns (onBus idle .busOff)
      [.host (.periphReset (Peripheral.quiet params))]))).map (·.periph.bus) = some .active ∧
    (after (step (turns (onBus idle .busOff) [.env (.bus .busOff)]))).isSome = true := by decide

theorem witness_OnlyTheTriggerOccupiesTheSlot :
    ((after (step (writing .txTrigger))).map (·.periph.tx.busy) = some true ∧
      (writing .txTrigger).periph.tx.busy = false) ∧
    ((occupied idle).periph.tx.busy = true ∧
      (after (step (turns (occupied idle) [.env .txFree]))).map (·.periph.tx.busy) = some false) ∧
    (∀ p, nextTurn (writing .txTrigger) ≠ .host (.periphReset p)) ∧
    ∀ p, nextTurn (turns (occupied idle) [.env .txFree]) ≠ .host (.periphReset p) :=
  ⟨by decide, by decide, fun p => show Turn.block ≠ .host (.periphReset p) by nofun,
    fun p => show Turn.env .txFree ≠ .host (.periphReset p) by nofun⟩

theorem witness_PeripheralResetKeepsTheBlock :
    fits (turns idle [.host (.periphReset (Peripheral.quiet params))]) = true ∧
    idle.busy = false ∧ (reading .rxBus).busy = true ∧
    (Peripheral.quiet params).slots.length = idle.params.nRx ∧
    (Peripheral.quiet params).tec < 2 ^ idle.params.tecW ∧
    (Peripheral.quiet params).bus ≠ .busOff ∧ (onBus idle .busOff).periph.bus = .busOff ∧
    (∀ s ∈ [idle, reading .rxBus], fits (turns s [.host .periphStart]) = true ∧
      (turns s [.host .periphStart]).agenda = .host .periphStart :: [] ∧
      (turns s [.host .periphStop]).agenda = .host .periphStop :: []) := by decide

theorem witness_HostTouchesTheBufferWhileIdle :
    fits (turns idle [.host (.bufWrite 63 1)]) = true ∧ (holding packet idle).mem.wf ∧
    idle.busy = false ∧ (reading .rxBus).busy = true ∧ 63 < 2 ^ params.addrW := by decide

theorem witness_EveryStepKeepsConsistent :
    ∀ s ∈ [reading .rxTest, writing .txTrigger, echoing .txPollErr, turns idle [.reset]],
      Consistent s ∧ (after (step s)).isSome = true := by decide

theorem witness_ConsistentRunNeverFaults :
    ∀ s ∈ [reading .rxCopy, reading .rxAdvance, writing .txLoad], Consistent s := by decide

theorem witness_EveryStepKeepsMemoryCanonical :
    (holding packet (reading .rxCopy)).mem.wf ∧
    (after (step (holding packet (reading .rxCopy)))).isSome = true := by decide

theorem witness_FinalCheckNeverHolds :
    (∀ s ∈ [reading .rxAdvance, reading .rxFinal],
      Consistent s ∧ NoPacketYet s ∧ (after (step s)).isSome = true) ∧
    (reading .rxFinal).fsm = .rxFinal := by decide

theorem witness_SendIsAlwaysMasked :
    (writing .txTrigger).irqMask = false ∧ (writing .txTrigger).calls = [] ∧
    (after (step (writing .txTrigger))).map (·.calls.length) = some 1 := by decide

theorem witness_ParametersAreFixedAndChecked :
    (after (step (writing .txTrigger))).isSome = true ∧
    ({ params with pollStep := 0 } : Params).pollStep = 0 ∧
    ({ params with sizeW := 3 } : Params).sizeW < 4 ∧
    ({ params with nRx := 0 } : Params).nRx = 0 ∧
    ({ params with txSlot := 1 } : Params).txSlots ≤ ({ params with txSlot := 1 } : Params).txSlot := by
  decide

theorem witness_CursorMovesOnlyInTheScan :
    (∀ s ∈ [{ reading .rxTest with cursor := 1 }, { reading .rxPassTop with cursor := 2 },
        reading .rxTest, reading .rxFilter, { reading .rxFilter with config := 1 }],
      Consistent s ∧ (after (step s)).isSome = true ∧ nextTurn s = .block ∧
      (s.periph.slots[s.cursor]?).isSome = decide (s.cursor < 2)) ∧
    ((full 8).full = true ∧ RxSlot.blank.full = false ∧ Accepts (reading .rxFilter) (full 8).id ∧
      ¬ Accepts { reading .rxFilter with config := 1 } (full 8).id) ∧
    (∀ s ∈ [completing, { completing with params := { params with advanceOnComplete := false } }],
      Consistent s ∧ nextTurn s = .block ∧ s.fsm = .rxAdvance ∧
      (after (step s)).map (·.busy) = some false) ∧
    (Consistent (reading .rxAdvance) ∧
      (after (step (reading .rxAdvance))).map (·.busy) = some true) :=
  ⟨by decide, by decide, by decide, by decide⟩

/-- The wire payload of program P2's first frame. -/
def wire : List Byte := [0x01, 0x31, 0x05, 0x00, 0xD0, 0xD1, 0xD2, 0xD3]

theorem witness_SwapUndoesTheLaneLaw :
    params.swapPartial = .fixedLanes ∧
    ({ params with swapPartial := .presentOnly } : Params).swapPartial = .presentOnly ∧ 7 < 8 ∧
    laneLaw lanes wire ∧ laneLaw lanes (wire.take 5) := by decide

theorem witness_CompleteRecognisesExactlyThePacket :
    PacketReadable (holding packet idle) 7 ∧ PacketReadable (holding packet idle) 6 := by decide

theorem witness_ChunksCoverTheBuffer :
    0 < 17 ∧ 1 + 1 < chunkCount 17 ∧ 16 < 17 ∧ 0 < 1 ∧ 0 < 8 := by decide

theorem witness_EmptyWriteEndsAtOnce :
    ∀ s ∈ [turns { idle with bufSize := 0 } [cmdWrite params writeWord, .block]],
      fits s = true ∧ ready s ∧ s.bufSize = 0 ∧ s.slotTypeOk = true ∧
      s.params.writeEmptyStatus = .empty ∧
      s.agenda = cmdWrite s.params writeWord :: .block :: [] := by decide

theorem witness_WriteTimesOutOnABusySlot :
    ∀ s ∈ [turns (occupied idle) [cmdWrite params writeWord],
        turns (occupied { idle with timeout := 0 }) [cmdWrite params writeWord]],
      fits s = true ∧ ready s ∧ s.slotTypeOk = true ∧ 0 < s.bufSize ∧
      s.bufBase + s.bufSize ≤ 2 ^ s.params.addrW ∧ s.periph.tx.busy = true ∧
      s.agenda = [cmdWrite s.params writeWord] ∧ s.refrain = [] := by decide

theorem witness_ReadTimesOutWithoutTraffic :
    ∀ s ∈ [turns { idle with periph := Peripheral.quiet params } [cmdWrite params readWord]],
      fits s = true ∧ ready s ∧ 8 ≤ s.bufSize ∧ s.mem.wf ∧
      s.bufBase + s.bufSize ≤ 2 ^ s.params.addrW ∧ s.cursor ≤ s.params.nRx ∧
      s.periph.bus ≠ .busOff ∧ (∀ slot ∈ s.periph.slots, slot.full = false) ∧
      s.agenda = [cmdWrite s.params readWord] ∧ s.refrain = [] := by decide

theorem witness_WriteSendsEveryChunkInOrder :
    ∀ s ∈ [turns { idle with bufSize := 17 } (cmdWrite params writeWord :: .block :: .block ::
        (promptTurns 3 ++ [.block]))],
      fits s = true ∧ ready s ∧ s.slotTypeOk = true ∧ 0 < s.bufSize ∧
      s.bufSize < 2 ^ s.params.sizeW ∧ s.bufBase + s.bufSize ≤ 2 ^ s.params.addrW ∧
      s.periph.tx.busy = false ∧ s.periph.bus = .active ∧
      s.agenda = cmdWrite s.params writeWord :: .block :: .block ::
        (promptTurns (chunkCount s.bufSize) ++ .block :: []) := by decide

/-- Program P2's packet of 12 bytes. -/
def twoFrames : List Byte := wire ++ [0xD4, 0xE0, 0xE1, 0x17]

/-- An idle block with program P2's two frames in slots 0 and 1 (95_test_vectors.md). -/
def loaded : State :=
  turns
    { idle with periph := { idle.periph with
        slots := [full 8, { full 4 with lanes := #v[0x17, 0xE1, 0xE0, 0xD4, 0, 0, 0, 0] }] } }
    [cmdWrite params readWord]

theorem witness_ReadReassemblesThePacket :
    (fits loaded = true ∧ ready loaded ∧ loaded.mem.wf ∧
      loaded.params.swapPartial = .fixedLanes ∧ loaded.params.advanceOnComplete = true ∧
      loaded.config.getLsbD 2 = false ∧ loaded.bufSize < 2 ^ loaded.params.sizeW ∧
      8 ≤ loaded.bufSize ∧ loaded.bufBase + loaded.bufSize ≤ 2 ^ loaded.params.addrW ∧
      twoFrames.length ≤ loaded.bufSize ∧ loaded.periph.bus = .active ∧
      twoFrames.length = 7 + ((twoFrames.getD 2 0).toNat + 256 * (twoFrames.getD 3 0).toNat) ∧
      twoFrames.getD 0 0 = 0x01 ∧ twoFrames.getD (twoFrames.length - 1) 0 = 0x17 ∧
      loaded.cursor + chunkCount twoFrames.length ≤ loaded.params.nRx ∧
      loaded.agenda = [cmdWrite loaded.params readWord] ∧ loaded.refrain = []) ∧
    ∀ k < chunkCount twoFrames.length, ∃ slot : RxSlot,
      loaded.periph.slots[loaded.cursor + k]? = some slot ∧ slot.full = true ∧
      Accepts loaded slot.id ∧ slot.len.toNat = chunkLength twoFrames.length (8 * k) ∧
      laneLaw slot.lanes ((twoFrames.drop (8 * k)).take 8) := by
  refine ⟨by decide, fun k hk => ?_⟩
  have h : k = 0 ∨ k = 1 := by
    have : chunkCount twoFrames.length = 2 := by decide
    omega
  rcases h with rfl | rfl
  · exact ⟨_, rfl, by decide⟩
  · exact ⟨_, rfl, by decide⟩

theorem witness_WriteAlwaysEndsAndAReadNeedNot :
    ∀ s ∈ [writing .txPollErr, occupied (writing .txPollFree), echoing .txWaitFree],
      Consistent s ∧ (running s).isSome = true ∧ writeRuns s = true ∧ s.fsm ≠ .txStart ∧
      (after (exec .write (writing .txPollErr))).isSome = true ∧
      (after (exec .read (echoing .txWaitFree))).isSome = true := by decide

/-- One round of the endless READ of that statement ends where it began, and a second likewise. -/
theorem test_endless_read_comes_round :
    ∀ k ∈ [0, 16], (after (run (endlessPrelude.length + k)
      { State.reset with agenda := endlessPrelude, refrain := endlessRefrain })).map
        (fun t => (t.fsm, t.cursor, t.dp.rxBudget, running t)) =
      some (.rxBus, 0, 0, some .read) := by decide

end Sys2Proof.Tests
end

/-!
SUPPORT. The host's register port (10_state.md rule R29, 20_memory.md rule R64): what a step is on a
register access, one equation for each place of the host write's order, and the statement on that order.
-/

namespace Sys2Proof.Machine

open Sys2Proof.Config Sys2Proof.Safety

/-! ## Faults and offsets -/

/-- The first fault names its cause and records its value (60_exceptions.md rule R206). -/
theorem raiseFault_of_unfaulted {s : State} (hf : s.fault = false) (c : FaultCause) (n : Nat) :
    raiseFault s c n = faulted s c (BitVec.ofNat 32 n) := by
  simp [raiseFault, faulted, hf]

@[simp] theorem regOffset_base_add (p : Params) (offset : Nat) :
    regOffset p (p.regBase + offset) = some offset := by
  simp [regOffset]

theorem shapeOk_iff (offset width : Nat) :
    shapeOk offset width = true ↔ width = 4 ∧ offset % 4 = 0 := by
  simp [shapeOk]

/-! ## The step on a register access -/

theorem step_of_regWrite {s : State} {rest : List Turn} {offset width : Nat} {data : Word}
    (hfits : fits s = true)
    (ha : s.agenda = .host (.regWrite (s.params.regBase + offset) width data) :: rest) :
    step s = hostWrite { s with agenda := rest } offset width data := by
  rw [step_of_cons hfits ha]
  simp only [takeTurn, hostStep, regOffset_base_add]

theorem step_of_regRead {s : State} {rest : List Turn} {offset width : Nat}
    (hfits : fits s = true)
    (ha : s.agenda = .host (.regRead (s.params.regBase + offset) width) :: rest) :
    step s = hostRead { s with agenda := rest } offset width := by
  rw [step_of_cons hfits ha]
  simp only [takeTurn, hostStep, regOffset_base_add]

/-! ## Register reads -/

theorem hostRead_of_shapeOk {offset width : Nat} (hs : shapeOk offset width = true) (s : State) :
    hostRead s offset width = .next { s with readData := readReg offset s } := by
  simp [hostRead, hs]

/-- `FAULT_INFO` at 0x30 is the last register (10_state.md rule R28). -/
theorem readReg_of_gt {offset : Nat} (h : 0x30 < offset) (s : State) : readReg offset s = 0 := by
  unfold readReg
  split
  case h_13 => rfl
  all_goals omega

/-! ## What a register write stores -/

theorem storeReg_eq_none {offset : Nat}
    (h : offset ∉ [0x08, 0x0C, 0x10, 0x18, 0x1C, 0x20, 0x24]) (data : Word) (s : State) :
    storeReg offset data s = none := by
  cases hst : storeReg offset data s with
  | none => rfl
  | some t =>
    have hoff := storeReg_cases hst
    simp only [List.mem_cons, List.not_mem_nil] at h
    omega

/-! ## The order of a register write -/

section
variable {s : State} {offset width : Nat} {data : Word}

theorem hostWrite_of_faulted (hs : shapeOk offset width = true) (hf : s.fault = true) :
    hostWrite s offset width data = .next s := by
  simp [hostWrite, hs, hf]

theorem hostWrite_of_busy (hs : shapeOk offset width = true) (hf : s.fault = false)
    (hb : s.busy = true) :
    hostWrite s offset width data =
      .next (faulted s .busyWrite (BitVec.ofNat 32 offset)) := by
  simp [hostWrite, hs, hf, hb, raiseFault_of_unfaulted]

theorem hostWrite_of_store {t : State} (hs : shapeOk offset width = true) (hf : s.fault = false)
    (hb : s.busy = false) (hst : storeReg offset data s = some t) :
    hostWrite s offset width data = .next t := by
  have hne : offset ≠ 0 := by
    rintro rfl
    cases hst
  simp [hostWrite, hs, hf, hb, hne, hst]

theorem hostWrite_of_cmd (hs : shapeOk 0 width = true) (hf : s.fault = false)
    (hb : s.busy = false) : hostWrite s 0 width data = writeCmd s data := by
  simp [hostWrite, hs, hf, hb]

theorem hostWrite_of_no_store (hs : shapeOk offset width = true) (hf : s.fault = false)
    (hb : s.busy = false) (hne : offset ≠ 0) (hst : storeReg offset data s = none) :
    hostWrite s offset width data =
      .next (faulted s .hostAccess (BitVec.ofNat 32 offset)) := by
  simp [hostWrite, hs, hf, hb, hne, hst, raiseFault_of_unfaulted]

end

/-! ## The command register -/

theorem writeCmd_of_instr {data : Word} {i : Instr} (h : decode data = .instr i) (s : State) :
    writeCmd s data = exec i s := by
  simp only [writeCmd, h]

/-- An illegal word is reported as it was written (30_encoding.md rule R94). -/
theorem illegal_word_eq {data w : Word} (h : decode data = .illegal (.illegalCmd w)) :
    w = data := by
  unfold decode at h
  split at h
  · cases h
  · split at h
    · cases h
    · cases h
      rfl

theorem writeCmd_of_illegal {s : State} {data w : Word} (hf : s.fault = false)
    (h : decode data = .illegal (.illegalCmd w)) :
    writeCmd s data = .next (faulted s .illegalCmd data) := by
  obtain rfl := illegal_word_eq h
  simp [writeCmd, h, raiseFault_of_unfaulted hf]

/-! ## The statement -/

/-- Settles O6: the step is `hostWrite` or `hostRead` at the offset, and each place of rule R29's
order is one equation of it. -/
theorem hostAccessFollowsItsOrder : Obligations.HostAccessFollowsItsOrder := by
  intro s rest offset data hfits haligned
  have hs : shapeOk offset 4 = true := (shapeOk_iff offset 4).2 ⟨rfl, haligned⟩
  refine ⟨fun ha => ?write, fun ha => ?read⟩
  case write =>
    rw [step_of_regWrite hfits ha]
    refine ⟨fun hf => hostWrite_of_faulted hs hf, fun hf hb => hostWrite_of_busy hs hf hb,
      fun hf hb => ?idle⟩
    case idle =>
      have stores {t : State} (hst : storeReg offset data { s with agenda := rest } = some t) :
          hostWrite { s with agenda := rest } offset 4 data = .next t :=
        hostWrite_of_store hs hf hb hst
      simp only [← BitVec.setWidth_eq_extractLsb' (by decide : 3 ≤ 32),
        ← BitVec.setWidth_eq_extractLsb' (by decide : 11 ≤ 32)]
      refine ⟨?bufBase, ?bufSize, ?timeout, ?config, ?ownId, ?bcastId, ?txId, ?cmd, ?other⟩
      case cmd =>
        rintro rfl
        rw [hostWrite_of_cmd (s := { s with agenda := rest }) hs hf hb]
        exact ⟨fun i hi => writeCmd_of_instr hi _, fun w hw => writeCmd_of_illegal hf hw⟩
      case other =>
        intro hoff
        rw [List.mem_cons, not_or] at hoff
        obtain ⟨hne, hnot⟩ := hoff
        exact hostWrite_of_no_store hs hf hb hne (storeReg_eq_none hnot data _)
      all_goals
        rintro rfl
        exact stores rfl
  case read =>
    rw [step_of_regRead hfits ha, hostRead_of_shapeOk hs]
    exact ⟨_, rfl, fun h => readReg_of_gt h _⟩

end Sys2Proof.Machine

/-!
SUPPORT. Accesses of the wrong width or alignment, and what an admitted read returns (20_memory.md
rule R64): one equation for the refused access, one for the admitted read, and the statement on
both.
-/

namespace Sys2Proof.Machine

open Sys2Proof.Config Sys2Proof.Safety

/-! ## Faults after the first -/

/-- A later fault changes neither cause nor value (60_exceptions.md rule R206). -/
theorem raiseFault_of_faulted {s : State} (hf : s.fault = true) (c : FaultCause) (n : Nat) :
    raiseFault s c n = { s with busy := false, irqMask := false, fsm := .fault } := by
  simp [raiseFault, hf]

/-! ## Misshapen accesses -/

theorem shapeOk_eq_false_iff (offset width : Nat) :
    shapeOk offset width = false ↔ width ≠ 4 ∨ offset % 4 ≠ 0 := by
  rw [← Bool.not_eq_true, shapeOk_iff, not_and_or]

theorem hostWrite_of_misshapen {offset width : Nat} (hs : shapeOk offset width = false) (s : State)
    (data : Word) : hostWrite s offset width data = .next (raiseFault s .hostAccess offset) := by
  simp [hostWrite, hs]

theorem hostRead_of_misshapen {offset width : Nat} (hs : shapeOk offset width = false) (s : State) :
    hostRead s offset width = .next (raiseFault s .hostAccess offset) := by
  simp [hostRead, hs]

/-- A read and a write of the wrong shape are refused alike, before rule R29's order is asked. -/
theorem step_of_misshapen {s : State} {rest : List Turn} {offset width : Nat} {data : Word}
    (hfits : fits s = true) (hbad : width ≠ 4 ∨ offset % 4 ≠ 0)
    (ha : s.agenda = .host (.regWrite (s.params.regBase + offset) width data) :: rest ∨
      s.agenda = .host (.regRead (s.params.regBase + offset) width) :: rest) :
    step s = .next (raiseFault { s with agenda := rest } .hostAccess offset) := by
  have hs : shapeOk offset width = false := (shapeOk_eq_false_iff offset width).2 hbad
  obtain hw | hr := ha
  · rw [step_of_regWrite hfits hw, hostWrite_of_misshapen hs]
  · rw [step_of_regRead hfits hr, hostRead_of_misshapen hs]

/-! ## Admitted reads -/

theorem step_of_wordRead {s : State} {rest : List Turn} {offset : Nat} {v : Word}
    (hfits : fits s = true)
    (ha : s.agenda = .host (.regRead (s.params.regBase + offset) 4) :: rest)
    (haligned : offset % 4 = 0) (hv : readReg offset { s with agenda := rest } = v) :
    step s = .next { s with agenda := rest, readData := v } := by
  rw [step_of_regRead hfits ha, hostRead_of_shapeOk ((shapeOk_iff offset 4).2 ⟨rfl, haligned⟩), hv]

/-! ## The statement -/

/-- Settles O7: a misshapen access is `raiseFault` on the state with the turn taken off, first or
later fault; an admitted read is `readReg`, whose value at each offset of the map is its row. -/
theorem misshapenAccessFaults : Obligations.MisshapenAccessFaults := by
  intro s rest offset width data hfits
  refine ⟨fun hbad hf ha => ?first, fun hbad hf ha => ?later, fun ha => ?read⟩
  case first =>
    rw [step_of_misshapen hfits hbad ha,
      raiseFault_of_unfaulted (s := { s with agenda := rest }) hf]
  case later =>
    rw [step_of_misshapen hfits hbad ha,
      raiseFault_of_faulted (s := { s with agenda := rest }) hf]
  case read =>
    have reads {v : Word} (h4 : offset % 4 = 0)
        (hv : readReg offset { s with agenda := rest } = v) :
        step s = .next { s with agenda := rest, readData := v } :=
      step_of_wordRead hfits ha h4 hv
    simp only [BitVec.ofNat_toNat]
    refine ⟨?cmd, ?status, ?bufBase, ?bufSize, ?timeout, ?count, ?config, ?ownId, ?bcastId, ?txId,
      ?cursor, ?faultCause, ?faultInfo, ?reserved⟩
    case reserved => exact fun hgt h4 => reads h4 (readReg_of_gt hgt _)
    all_goals
      rintro rfl
      exact reads rfl rfl

end Sys2Proof.Machine

/-!
SUPPORT. The `CMD` write to a block that is idle and not faulted (30_encoding.md rules R91 and R94):
the step is `writeCmd` of the word, both commands start there, and every other word is illegal.
-/

namespace Sys2Proof.Machine

open Sys2Proof.Config Sys2Proof.Safety

/-! ## The decoder on each word -/

theorem decode_readWord : decode readWord = .instr .read := Laws.EncodingRoundTrip.read rfl

theorem decode_writeWord : decode writeWord = .instr .write := Laws.EncodingRoundTrip.write rfl

/-- The word is decoded whole: there are two legal words and no others (rule R94). -/
theorem decode_of_ne {w : Word} (hr : w ≠ readWord) (hw : w ≠ writeWord) :
    decode w = .illegal (.illegalCmd w) := by
  simp only [decode, if_neg hr, if_neg hw]

/-! ## The start of a command -/

theorem running_of_ready {s : State} (h : ready s) : running s = none := by
  obtain ⟨hfsm, _, _⟩ := h
  simp only [running, hfsm]

theorem issue_of_ready {s : State} (h : ready s) (start : State → State) :
    issue s start = start s := by
  obtain ⟨_, hbusy, hfault⟩ := h
  simp [issue, hbusy, hfault]

theorem exec_read_of_ready {s : State} (h : ready s) : exec .read s = .next (startRead s) := by
  rw [(exec_of_idle (running_of_ready h)).1, issue_of_ready h]

theorem exec_write_of_ready {s : State} (h : ready s) : exec .write s = .next (startWrite s) := by
  rw [(exec_of_idle (running_of_ready h)).2, issue_of_ready h]

/-! ## The step on a `CMD` write -/

/-- `CMD` is the register at offset 0 (10_state.md rule R21). -/
theorem step_of_cmdWrite {s : State} {rest : List Turn} {w : Word} (hfits : fits s = true)
    (h : ready s) (ha : s.agenda = cmdWrite s.params w :: rest) :
    step s = writeCmd { s with agenda := rest } w := by
  obtain ⟨_, hbusy, hfault⟩ := h
  rw [step_of_regWrite (offset := 0) hfits ha]
  exact hostWrite_of_cmd rfl hfault hbusy

/-! ## The statement -/

/-- Settles O3: the step is `writeCmd` of the word, which `decode` sends to the start of READ, to the
start of WRITE, or to the fault. -/
theorem commandWriteIsDecoded : Obligations.CommandWriteIsDecoded := by
  intro s rest w hfits hready ha
  rw [step_of_cmdWrite hfits hready ha]
  have hpopped : ready { s with agenda := rest } := hready
  obtain ⟨_, _, hfault⟩ := hready
  refine ⟨?read, ?write, fun hr hw => ?illegal⟩
  case read =>
    rintro rfl
    exact (writeCmd_of_instr decode_readWord _).trans (exec_read_of_ready hpopped)
  case write =>
    rintro rfl
    exact (writeCmd_of_instr decode_writeWord _).trans (exec_write_of_ready hpopped)
  case illegal => exact writeCmd_of_illegal hfault (decode_of_ne hr hw)

end Sys2Proof.Machine

/-!
SUPPORT. The codes the host reads (30_encoding.md rules R92, R93 and R95): the fields of the `STATUS`
word that hold a code, and the statement that each code is its table's.
-/

namespace Sys2Proof.Machine

/-! ## The coded fields of `STATUS` (10_state.md rule R22) -/

theorem statusWord_state (s : State) : (statusWord s).extractLsb' 16 5 = s.fsm.code := by
  apply BitVec.eq_of_toNat_eq
  have hbusy := Bool.toNat_le s.busy
  have hfault := Bool.toNat_le s.fault
  have hecho := Bool.toNat_le s.echoErr
  have hresult := s.result.code.isLt
  have hop := (lastOpCode s.lastOp).isLt
  have hstate := s.fsm.code.isLt
  rw [BitVec.extractLsb'_toNat, statusWord_toNat, Nat.shiftRight_eq_div_pow]
  omega

theorem statusWord_result (s : State) : (statusWord s).extractLsb' 4 3 = s.result.code := by
  apply BitVec.eq_of_toNat_eq
  have hbusy := Bool.toNat_le s.busy
  have hfault := Bool.toNat_le s.fault
  have hecho := Bool.toNat_le s.echoErr
  have hresult := s.result.code.isLt
  rw [BitVec.extractLsb'_toNat, statusWord_toNat, Nat.shiftRight_eq_div_pow]
  omega

/-! ## The registers that hold a code -/

theorem readReg_status (s : State) : readReg 0x04 s = statusWord s := rfl

theorem readReg_faultCause_toNat (s : State) :
    (readReg 0x2C s).toNat = s.faultCause.code.toNat :=
  BitVec.toNat_setWidth_of_le (by decide)

/-! ## The statement -/

/-- Settles O9: each field read is the code of the state, the result or the cause, and that code is
the row of its table, constructor by constructor. -/
theorem codesAsTabled : Obligations.CodesAsTabled := by
  intro s
  rw [readReg_status, statusWord_state, statusWord_result, readReg_faultCause_toNat]
  refine ⟨?state, ?result, ?cause⟩
  case state => cases s.fsm <;> rfl
  case result => cases s.result <;> rfl
  case cause => cases s.faultCause <;> rfl

end Sys2Proof.Machine

/-!
SUPPORT. The Transmitter's micro-steps (40_transmit.md rules R121 to R129): one equation for each
branch of each rule, the helpers those branches name, and the statement on each micro-step. A host
WRITE and an echo run the same micro-steps, so nothing here asks which of the two is running.
-/

namespace Sys2Proof.Machine

open Sys2Proof.Config Sys2Proof.Safety

/-! ## The micro-step of a running command -/

section
variable {s : State}

theorem microStep_of_txStart (h : s.fsm = .txStart) : microStep s = txStart s := by
  simp only [microStep, h]

theorem microStep_of_txWaitFree (h : s.fsm = .txWaitFree) : microStep s = txWaitFree s := by
  simp only [microStep, h]

theorem microStep_of_txLoad (h : s.fsm = .txLoad) : microStep s = txLoad s := by
  simp only [microStep, h]

theorem microStep_of_txTrigger (h : s.fsm = .txTrigger) : microStep s = txTrigger s := by
  simp only [microStep, h]

theorem microStep_of_txPollErr (h : s.fsm = .txPollErr) : microStep s = txPollErr s := by
  simp only [microStep, h]

theorem microStep_of_txPollFree (h : s.fsm = .txPollFree) : microStep s = txPollFree s := by
  simp only [microStep, h]

theorem microStep_of_txFinal (h : s.fsm = .txFinal) : microStep s = txFinal s := by
  simp only [microStep, h]

/-! ## The polling wait (rules R124 and R128) -/

/-- With timeout 0 the budget falls without a `Delay` (rule R132). -/
theorem txWait_of_timeout_zero (h : s.dp.txTimeout = 0) :
    txWait s =
      { s with dp := { s.dp with txBudget := s.dp.txBudget - (s.params.pollStep : Int) } } := by
  rw [txWait_eq, if_pos h, spend]

theorem txWait_of_timeout_ne_zero (h : s.dp.txTimeout ≠ 0) :
    txWait s =
      { s with
        dp := { s.dp with txBudget := s.dp.txBudget - (s.params.pollStep : Int) }
        calls := .delay s.params.pollStep :: s.calls } := by
  rw [txWait_eq, if_neg h, spend]

/-! ## `TX_START` (rule R121) -/

theorem txStart_of_wrong_slotType (hslot : s.slotTypeOk = false) (hf : s.fault = false) :
    txStart s = .next (faulted s .txSlotType 0) := by
  simp [txStart, hslot, raiseFault_of_unfaulted hf]

theorem txStart_of_empty (hslot : s.slotTypeOk = true) (hsize : s.dp.txSize = 0) :
    txStart s = .next (txReturn s (emptyResult s.params) 0) := by
  simp [txStart, hslot, hsize]

theorem txStart_of_outside (hslot : s.slotTypeOk = true) (hsize : 0 < s.dp.txSize)
    (hout : spaceEnd s < s.dp.txBase + s.dp.txSize) (hf : s.fault = false) :
    txStart s = .next (faulted s .addrRange (BitVec.ofNat 32 s.dp.txBase)) := by
  simp [txStart, hslot, hsize.ne', hout, raiseFault_of_unfaulted hf]

theorem txStart_of_inside (hslot : s.slotTypeOk = true) (hsize : 0 < s.dp.txSize)
    (hin : s.dp.txBase + s.dp.txSize ≤ spaceEnd s) :
    txStart s = .next
      (goto (setDp s { s.dp with txBudget := initialBudget s.dp.txTimeout, txOff := 0 })
        .txWaitFree) := by
  simp [txStart, hslot, hsize.ne', hin.not_gt]

/-! ## `TX_WAIT_FREE` (rule R124) -/

theorem txWaitFree_of_spent (h : s.dp.txBudget < 0) :
    txWaitFree s = .next (txReturn s .timeout s.dp.txOff) := by
  simp [txWaitFree, h]

theorem txWaitFree_of_free (h : 0 ≤ s.dp.txBudget) (hfree : s.periph.tx.busy = false) :
    txWaitFree s = .next (goto (logCall s .txFull) .txLoad) := by
  simp [txWaitFree, h.not_gt, hfree]

theorem txWaitFree_of_busy (h : 0 ≤ s.dp.txBudget) (hbusy : s.periph.tx.busy = true) :
    txWaitFree s = .next (txWait (logCall s .txFull)) := by
  simp [txWaitFree, h.not_gt, hbusy]

/-! ## `TX_LOAD` (rule R125) -/

/-- The next chunk of a buffer within the buffer memory lies within it too (20_memory.md rule
R63). -/
theorem inSpace_chunk {base size off : Nat} (hoff : off < size) (hin : base + size ≤ spaceEnd s) :
    inSpace s (base + off) (chunkLength size off) = true := by
  have hle : chunkLength size off ≤ size - off := Nat.min_le_right _ _
  have hend : base + off + chunkLength size off ≤ spaceEnd s := by omega
  simp [inSpace, hend]

theorem txLoad_of_inSpace
    (h : inSpace s (s.dp.txBase + s.dp.txOff) (chunkLength s.dp.txSize s.dp.txOff) = true) :
    txLoad s = .next
      (goto
        (logCall
          (setDp s
            { s.dp with
              chunkLen := BitVec.ofNat 4 (chunkLength s.dp.txSize s.dp.txOff)
              chunk := Memory.loadInto s.mem (s.dp.txBase + s.dp.txOff) s.dp.chunk
                (chunkLength s.dp.txSize s.dp.txOff)
              errSnap := s.periph.tec })
          .txErrCount)
        .txTrigger) := by
  simp [txLoad, h]

/-- A chunk left to send holds at least one byte (42_datapath.md rule R176). -/
theorem chunkLength_pos {size off : Nat} (h : off < size) : 1 ≤ chunkLength size off :=
  Nat.le_min.2 ⟨by decide, Nat.sub_pos_of_lt h⟩

/-- The places of the chunk a load fills, and those it leaves, by index. -/
theorem loadInto_getElem? (m : Memory) (base : Nat) (old : Lanes) (n : Nat) {j : Nat}
    (hj : j < 8) :
    (Memory.loadInto m base old n)[j]? =
      if j < n then some (m.read (base + j)) else old[j]? := by
  rw [Vector.getElem?_eq_getElem hj, Vector.getElem?_eq_getElem hj, loadInto_get m base old n j hj,
    apply_ite some]

/-! ## `TX_POLL_ERR` (rule R127) -/

theorem tecFail_iff_of_change {p : Params} (h : p.tecFailOn = .change) (snap e : Nat) :
    tecFail p snap e = true ↔ e ≠ snap := by
  simp [tecFail, h]

theorem tecFail_iff_of_increase {p : Params} (h : p.tecFailOn = .increase) (snap e : Nat) :
    tecFail p snap e = true ↔ snap < e := by
  simp [tecFail, h]

theorem txPollErr_of_spent (h : s.dp.txBudget < 0) :
    txPollErr s = .next (txReturn s .timeout s.dp.txOff) := by
  simp [txPollErr, h]

theorem txPollErr_of_fails (h : 0 ≤ s.dp.txBudget)
    (hfail : tecFail s.params s.dp.errSnap s.periph.tec = true) :
    txPollErr s = .next (txReturn (logCall s .txErrCount) .timeout s.dp.txOff) := by
  simp [txPollErr, h.not_gt, hfail]

theorem txPollErr_of_passes (h : 0 ≤ s.dp.txBudget)
    (hfail : tecFail s.params s.dp.errSnap s.periph.tec = false) :
    txPollErr s = .next (goto (logCall s .txErrCount) .txPollFree) := by
  simp [txPollErr, h.not_gt, hfail]

/-! ## `TX_POLL_FREE` (rule R128) -/

/-- An offset that fits its register is stored uncut (00_scope.md rule R9). -/
theorem txPollFree_of_free (hfree : s.periph.tx.busy = false)
    (hfits : s.dp.txOff + s.dp.chunkLen.toNat < 2 ^ s.params.sizeW) :
    txPollFree s = .next
      (goto
        (setDp (logCall s .txFull) { s.dp with txOff := s.dp.txOff + s.dp.chunkLen.toNat })
        (if s.dp.txOff + s.dp.chunkLen.toNat = s.dp.txSize then .txFinal else .txLoad)) := by
  simp [txPollFree, hfree, cut_of_lt hfits]

theorem txPollFree_of_busy (hbusy : s.periph.tx.busy = true) :
    txPollFree s = .next (goto (txWait (logCall s .txFull)) .txPollErr) := by
  simp [txPollFree, hbusy]

/-! ## `TX_FINAL` (rule R129) -/

theorem txFaultState_iff_of_busOffOnly {p : Params} (h : p.txFaultStates = .busOffOnly) (b : Bus) :
    txFaultState p b = true ↔ b = .busOff := by
  cases b <;> simp [txFaultState, h]

theorem txFaultState_iff_of_passiveAndBusOff {p : Params}
    (h : p.txFaultStates = .passiveAndBusOff) (b : Bus) :
    txFaultState p b = true ↔ b ≠ .active := by
  cases b <;> simp [txFaultState, h]

theorem txFinal_of_faultState (h : txFaultState s.params s.periph.bus = true) :
    txFinal s = .next (txReturn (logCall s .busState) .invalidState s.dp.txSize) := by
  simp [txFinal, h]

theorem txFinal_of_goodState (h : txFaultState s.params s.periph.bus = false) :
    txFinal s = .next (txReturn (logCall s .busState) .ok s.dp.txSize) := by
  simp [txFinal, h]

end

/-! ## The statements -/

/-- Settles O25: the chunk lies in the buffer memory because its buffer does, so the load is made,
and `loadInto` fills exactly the first `chunk_len` places. -/
theorem txLoadReadsTheNextChunk : Obligations.TxLoadReadsTheNextChunk := by
  intro s i hrun hfsm hoff hin
  rw [exec_of_running hrun, microStep_of_txLoad hfsm, txLoad_of_inSpace (inSpace_chunk hoff hin)]
  refine ⟨_, _, rfl, ?_⟩
  rw [chunkLength_toNat]
  exact ⟨rfl, chunkLength_pos hoff, chunkLength_le _ _,
    fun j hj => loadInto_getElem? s.mem _ s.dp.chunk _ hj⟩

/-- Settles O23: the four outcomes of `TX_START`, the empty one read off the parameter. -/
theorem txStartChecksItsOperands : Obligations.TxStartChecksItsOperands := by
  intro s i hrun hfsm hf
  rw [exec_of_running hrun, microStep_of_txStart hfsm]
  refine ⟨fun hslot => txStart_of_wrong_slotType hslot hf, fun hslot hsize => ?empty,
    fun hslot hsize hout => txStart_of_outside hslot hsize hout hf,
    fun hslot hsize hin => txStart_of_inside hslot hsize hin⟩
  case empty =>
    rw [txStart_of_empty hslot hsize]
    exact ⟨fun hp => by simp only [emptyResult, hp], fun hp => by simp only [emptyResult, hp]⟩

/-- Settles O24: spent, free, or one polling wait after the `txFull` call. -/
theorem txWaitFreePollsTheSlot : Obligations.TxWaitFreePollsTheSlot := by
  intro s i hrun hfsm
  rw [exec_of_running hrun, microStep_of_txWaitFree hfsm]
  refine ⟨txWaitFree_of_spent, txWaitFree_of_free, fun h hbusy hzero => ?quick,
    fun h hbusy hne => ?delayed⟩
  case quick =>
    rw [txWaitFree_of_busy h hbusy, txWait_of_timeout_zero (s := logCall s .txFull) hzero]
    rfl
  case delayed =>
    rw [txWaitFree_of_busy h hbusy, txWait_of_timeout_ne_zero (s := logCall s .txFull) hne]
    rfl

/-- Settles O26: the micro-step's equation, whose `chunkData` is the chunk's first `chunk_len`
bytes. -/
theorem txTriggerSendsUnderTheMask : Obligations.TxTriggerSendsUnderTheMask := by
  intro s i hrun hfsm
  rw [exec_of_running hrun, microStep_of_txTrigger hfsm, txTrigger_eq, chunkData]

/-- Settles O27: under either setting of `TEC_FAIL_ON` the statement's `fails` is `tecFail`. -/
theorem txPollErrFailsOnTheCounter : Obligations.TxPollErrFailsOnTheCounter := by
  intro s i fails hrun hfsm hchange hincrease
  have hfails : tecFail s.params s.dp.errSnap s.periph.tec = fails := by
    rw [Bool.eq_iff_iff]
    cases hset : s.params.tecFailOn with
    | change => rw [tecFail_iff_of_change hset, hchange hset]
    | increase => rw [tecFail_iff_of_increase hset, hincrease hset]
  rw [exec_of_running hrun, microStep_of_txPollErr hfsm]
  exact ⟨txPollErr_of_spent, fun h hf => txPollErr_of_fails h (hfails.trans hf),
    fun h hf => txPollErr_of_passes h (hfails.trans hf)⟩

/-- Settles O28: a free slot moves the offset, which its register holds uncut; a busy one costs one
polling wait. -/
theorem txPollFreeCompletesTheChunk : Obligations.TxPollFreeCompletesTheChunk := by
  intro s i hrun hfsm hfits
  rw [exec_of_running hrun, microStep_of_txPollFree hfsm]
  refine ⟨fun hfree hlast => ?last, fun hfree hmore => ?more, fun hbusy hzero => ?quick,
    fun hbusy hne => ?delayed⟩
  case last => rw [txPollFree_of_free hfree hfits, if_pos hlast]; rfl
  case more => rw [txPollFree_of_free hfree hfits, if_neg hmore]; rfl
  case quick =>
    rw [txPollFree_of_busy hbusy, txWait_of_timeout_zero (s := logCall s .txFull) hzero]
    rfl
  case delayed =>
    rw [txPollFree_of_busy hbusy, txWait_of_timeout_ne_zero (s := logCall s .txFull) hne]
    rfl

/-- Settles O29: under either setting of `TX_FAULT_STATES` the statement's `bad` is
`txFaultState`. -/
theorem txFinalChecksTheBus : Obligations.TxFinalChecksTheBus := by
  intro s i bad hrun hfsm honly hboth
  have hbad : txFaultState s.params s.periph.bus = bad := by
    rw [Bool.eq_iff_iff]
    cases hset : s.params.txFaultStates with
    | busOffOnly => rw [txFaultState_iff_of_busOffOnly hset, honly hset]
    | passiveAndBusOff => rw [txFaultState_iff_of_passiveAndBusOff hset, hboth hset]
  rw [exec_of_running hrun, microStep_of_txFinal hfsm]
  exact ⟨fun h => txFinal_of_faultState (hbad.trans h),
    fun h => txFinal_of_goodState (hbad.trans h)⟩

end Sys2Proof.Machine

/-!
SUPPORT. The Receiver's micro-steps (41_receive.md rules R141 to R153 without the echo's R150): one
equation for each branch of each rule, the operations those branches name, and the statement on each
micro-step.
-/

namespace Sys2Proof.Machine

open Sys2Proof.Config Sys2Proof.Safety

section
variable {s : State}

/-! ## The micro-step READ makes in each of its states (10_state.md rule R35) -/

theorem exec_read_of_rxStart (h : s.fsm = .rxStart) : exec .read s = rxStart s := by
  simp only [exec_of_running, running, microStep, h]

theorem exec_read_of_rxClear (h : s.fsm = .rxClear) : exec .read s = rxClear s := by
  simp only [exec_of_running, running, microStep, h]

theorem exec_read_of_rxPassTop (h : s.fsm = .rxPassTop) : exec .read s = rxPassTop s := by
  simp only [exec_of_running, running, microStep, h]

theorem exec_read_of_rxBus (h : s.fsm = .rxBus) : exec .read s = rxBus s := by
  simp only [exec_of_running, running, microStep, h]

theorem exec_read_of_rxTest (h : s.fsm = .rxTest) : exec .read s = rxTest s := by
  simp only [exec_of_running, running, microStep, h]

theorem exec_read_of_rxFilter (h : s.fsm = .rxFilter) : exec .read s = rxFilter s := by
  simp only [exec_of_running, running, microStep, h]

theorem exec_read_of_rxCopy (h : s.fsm = .rxCopy) : exec .read s = rxCopy s := by
  simp only [exec_of_running, running, microStep, h]

theorem exec_read_of_rxRelease (h : s.fsm = .rxRelease) : exec .read s = rxReleaseStep s := by
  simp only [exec_of_running, running, microStep, h]

theorem exec_read_of_rxAdvance (h : s.fsm = .rxAdvance) : exec .read s = rxAdvance s := by
  simp only [exec_of_running, running, microStep, h]

theorem exec_read_of_rxPassEnd (h : s.fsm = .rxPassEnd) : exec .read s = rxPassEnd s := by
  simp only [exec_of_running, running, microStep, h]

theorem exec_read_of_rxFinal (h : s.fsm = .rxFinal) : exec .read s = rxFinal s := by
  simp only [exec_of_running, running, microStep, h]

/-! ## Registers and slots, where the value fits and the slot exists -/

/-- A count that fits its register is returned uncut (00_scope.md rule R9). -/
theorem finish_of_fits {n : Nat} (h : n < 2 ^ s.params.sizeW) (r : Result) :
    finish s r n = ended s r n := by
  rw [finish, cut_of_lt h, ended]

theorem setCursor_of_le {v : Nat} (h : v ≤ s.params.nRx) :
    setCursor s v = { s with cursor := v } := by
  rw [setCursor, cut_of_lt (lt_cursorWidth s.params h)]

theorem rxRelease_of_slot {i : Nat} {slot : RxSlot} (h : s.periph.slots[i]? = some slot) :
    rxRelease s i =
      { s with periph := released s i slot, calls := .rxRelease i :: s.calls } := by
  rw [rxRelease, modify_eq_set h, logCall, released]

theorem inSpace_of_le {lo n : Nat} (h : lo + n ≤ spaceEnd s) : inSpace s lo n = true := by
  simp [inSpace, h]

/-- The statements' test of a packet is the model's, wherever its bytes exist (42_datapath.md rule
R174). -/
theorem complete_of_readable {n : Nat} (h : PacketReadable s n) :
    complete s n = some (decide (IsPacket s n)) := by
  obtain ⟨hlen, hlast⟩ := h
  exact complete_eq hlen hlast

theorem complete_of_packet {n : Nat} (h : PacketReadable s n) (hp : IsPacket s n) :
    complete s n = some true := by
  rw [complete_of_readable h, decide_eq_true hp]

theorem complete_of_not_packet {n : Nat} (h : PacketReadable s n) (hp : ¬ IsPacket s n) :
    complete s n = some false := by
  rw [complete_of_readable h, decide_eq_false hp]

/-! ## `RX_START` (rule R141) -/

theorem rxStart_of_empty (h : s.bufSize = 0) : rxStart s = .next (finish s .ok 0) := by
  simp [rxStart, h]

theorem rxStart_of_short (hpos : 0 < s.bufSize) (h : s.bufSize < maxFrameLen)
    (hf : s.fault = false) :
    rxStart s = .next (faulted s .rxSize (BitVec.ofNat 32 s.bufSize)) := by
  simp [rxStart, hpos.ne', h, raiseFault_of_unfaulted hf]

/-- A buffer of a frame's length or more is not empty. -/
theorem bufSize_ne_zero_of_le (h : maxFrameLen ≤ s.bufSize) : s.bufSize ≠ 0 :=
  (Nat.lt_of_lt_of_le (by decide) h).ne'

theorem rxStart_of_outside (h : maxFrameLen ≤ s.bufSize)
    (hout : spaceEnd s < s.bufBase + s.bufSize) (hf : s.fault = false) :
    rxStart s = .next (faulted s .addrRange (BitVec.ofNat 32 s.bufBase)) := by
  simp [rxStart, bufSize_ne_zero_of_le h, h.not_gt, hout, raiseFault_of_unfaulted hf]

theorem rxStart_of_inside (h : maxFrameLen ≤ s.bufSize)
    (hin : s.bufBase + s.bufSize ≤ spaceEnd s) :
    rxStart s = .next (goto
      (setDp s { s.dp with count := 0, produced := 0, rxBudget := initialBudget s.timeout })
      .rxClear) := by
  simp [rxStart, bufSize_ne_zero_of_le h, h.not_gt, hin.not_gt]

/-! ## `RX_CLEAR` (rule R142) -/

theorem rxClear_of_inSpace (h : inSpace s s.bufBase s.bufSize = true) :
    rxClear s = .next
      (goto { s with mem := Memory.fill s.mem s.bufBase 0x00 s.bufSize } .rxPassTop) := by
  simp [rxClear, h]

/-! ## `RX_PASS_TOP` (rule R144) -/

theorem rxPassTop_of_spent (h : s.dp.rxBudget < 0) : rxPassTop s = .next (goto s .rxFinal) := by
  simp [rxPassTop, h]

theorem rxPassTop_of_wrap (h : 0 ≤ s.dp.rxBudget) (hc : s.params.nRx ≤ s.cursor) :
    rxPassTop s = .next (goto (setDp (setCursor s 0) { s.dp with produced := 0 }) .rxBus) := by
  simp [rxPassTop, h.not_gt, hc]

theorem rxPassTop_of_lt (h : 0 ≤ s.dp.rxBudget) (hc : s.cursor < s.params.nRx) :
    rxPassTop s = .next (goto s .rxBus) := by
  simp [rxPassTop, h.not_gt, hc.not_ge]

/-! ## `RX_BUS` (rule R145) -/

theorem rxBus_of_passOver (h : s.params.nRx ≤ s.cursor) : rxBus s = .next (goto s .rxPassEnd) := by
  simp [rxBus, h]

theorem rxBus_of_busOff (h : s.cursor < s.params.nRx) (hb : s.periph.bus = .busOff) :
    rxBus s = .next (finish (logCall s .busState) .invalidState s.dp.count) := by
  simp [rxBus, h.not_ge, hb]

theorem rxBus_of_not_busOff (h : s.cursor < s.params.nRx) (hb : s.periph.bus ≠ .busOff) :
    rxBus s = .next (goto (logCall s .busState) .rxTest) := by
  simp [rxBus, h.not_ge, hb]

/-! ## `RX_PASS_END` (rule R152) -/

theorem rxPassEnd_of_idle (h : s.dp.produced = 0) :
    rxPassEnd s = .next (goto
      (setDp (delay s s.params.pollStep) { s.dp with rxBudget := spend s.params s.dp.rxBudget })
      .rxPassTop) := by
  simp [rxPassEnd, h]

theorem rxPassEnd_of_taken (h : 0 < s.dp.produced) :
    rxPassEnd s = .next (goto s .rxPassTop) := by
  simp [rxPassEnd, h.ne']

/-! ## `RX_FINAL` (rule R153) -/

theorem rxFinal_of_complete (h : complete s s.dp.count = some true) :
    rxFinal s = .next (finish s .ok s.dp.count) := by
  simp [rxFinal, h]

theorem rxFinal_of_incomplete (h : complete s s.dp.count = some false) :
    rxFinal s = .next (finish s .timeout s.dp.count) := by
  simp [rxFinal, h]

/-! ## `RX_ADVANCE` (rule R151) -/

/-- The state after `RX_ADVANCE` has counted the frame just copied. -/
def countedFrame (s : State) : State :=
  setDp s { s.dp with count := s.dp.count + s.dp.len.toNat }

/-- A count that fits its register is stored uncut, and completion is tested on it. -/
theorem rxAdvance_of_complete (hfits : s.dp.count + s.dp.len.toNat < 2 ^ s.params.sizeW)
    (h : complete s (s.dp.count + s.dp.len.toNat) = some true) :
    rxAdvance s = .next (finish
      (if s.params.advanceOnComplete then setCursor (countedFrame s) (s.cursor + 1)
       else countedFrame s)
      .ok (s.dp.count + s.dp.len.toNat)) := by
  simp [rxAdvance, countedFrame, cut_of_lt hfits, h]

theorem rxAdvance_of_incomplete (hfits : s.dp.count + s.dp.len.toNat < 2 ^ s.params.sizeW)
    (h : complete s (s.dp.count + s.dp.len.toNat) = some false) :
    rxAdvance s = .next (goto (setCursor (countedFrame s) (s.cursor + 1)) .rxBus) := by
  simp [rxAdvance, countedFrame, cut_of_lt hfits, h]

/-! ## The slot under the cursor (rules R146 to R149) -/

section
variable {slot : RxSlot} (hslot : slotAt s s.cursor = some slot)
include hslot

theorem rxTest_of_full (h : slot.full = true) :
    rxTest s = .next (goto (logCall s (.rxFull s.cursor)) .rxFilter) := by
  simp [rxTest, hslot, h]

theorem rxTest_of_empty (h : slot.full = false) :
    rxTest s = .next
      (goto (setCursor (logCall s (.rxFull s.cursor)) (s.cursor + 1)) .rxBus) := by
  simp [rxTest, hslot, h]

theorem rxFilter_of_rejected (h : accept s slot.id = false) :
    rxFilter s = .next
      (goto (setCursor (rxRelease (logCall s (.rxId s.cursor)) s.cursor) (s.cursor + 1))
        .rxBus) := by
  simp [rxFilter, hslot, h]

theorem rxFilter_of_overlong (h : accept s slot.id = true) (hlen : maxFrameLen < slot.len.toNat) :
    rxFilter s = .next
      (raiseFault (acceptedFrame s slot.len) .periphLen (s.cursor * 16 + slot.len.toNat)) := by
  simp [rxFilter, acceptedFrame, hslot, h, hlen]

theorem rxFilter_of_overrun (h : accept s slot.id = true) (hlen : slot.len.toNat ≤ maxFrameLen)
    (hover : s.bufSize < s.dp.count + slot.len.toNat) :
    rxFilter s = .next
      (raiseFault (acceptedFrame s slot.len) .overrun (s.dp.count * 16 + slot.len.toNat)) := by
  simp [rxFilter, acceptedFrame, hslot, h, hlen.not_gt, hover]

theorem rxFilter_of_taken (h : accept s slot.id = true) (hlen : slot.len.toNat ≤ maxFrameLen)
    (hroom : s.dp.count + slot.len.toNat ≤ s.bufSize) :
    rxFilter s = .next (goto (acceptedFrame s slot.len) .rxCopy) := by
  simp [rxFilter, acceptedFrame, hslot, h, hlen.not_gt, hroom.not_gt]

theorem rxCopy_of_inSpace (hlen : s.dp.len.toNat ≤ maxFrameLen)
    (hin : inSpace s (bufAddr s s.dp.count) s.dp.len.toNat = true) :
    rxCopy s = .next (goto
      { s with
        mem := Memory.copyDown (payloadByte s.params slot.lanes s.dp.len.toNat) s.mem
          (bufAddr s s.dp.count) s.dp.len.toNat
        calls := laneCalls s.params s.cursor s.dp.len.toNat ++ s.calls }
      .rxRelease) := by
  simp [rxCopy, hslot, hlen.not_gt, hin]

theorem rxReleaseStep_of_slot :
    rxReleaseStep s = .next
      (goto (rxRelease s s.cursor) (if echoEn s then .rxEcho else .rxAdvance)) := by
  simp [rxReleaseStep, hslot]

end

/-- While the cursor is in range the `produced` counter does not overflow (10_state.md rule R27). -/
theorem acceptedFrame_of_lt (hc : s.cursor < s.params.nRx) (hp : s.dp.produced ≤ s.cursor)
    (len : FrameLen) :
    acceptedFrame s len =
      { s with
        calls := .rxLen s.cursor :: .rxId s.cursor :: s.calls
        dp := { s.dp with produced := s.dp.produced + 1, len := len } } := by
  have hle : s.dp.produced + 1 ≤ s.params.nRx := by omega
  rw [acceptedFrame, cut_of_lt (lt_cursorWidth s.params hle)]
  rfl

end

/-! ## The lanes of a frame (42_datapath.md rules R170 to R172) -/

theorem laneIndex_of_fixedLanes {p : Params} (h : p.swapPartial = .fixedLanes) (len k : Nat) :
    laneIndex p len k = 4 * (k / 4) + (3 - k % 4) := by
  rw [laneIndex, h, swap]

theorem laneIndex_of_presentOnly {p : Params} (h : p.swapPartial = .presentOnly) (len k : Nat) :
    laneIndex p len k = 4 * (k / 4) + (min 4 (len - 4 * (k / 4)) - 1 - k % 4) := by
  rw [laneIndex, h]

/-- Under either reading the lane of a payload byte of a frame is one of the eight. -/
theorem laneIndex_lt (p : Params) {len k : Nat} (hk : k < len) (hlen : len ≤ 8) :
    laneIndex p len k < 8 := by
  cases h : p.swapPartial with
  | fixedLanes => rw [laneIndex_of_fixedLanes h]; omega
  | presentOnly => rw [laneIndex_of_presentOnly h]; omega

/-- The default of `payloadByte` is never taken within a frame. -/
theorem some_payloadByte (p : Params) (lanes : Lanes) {len k : Nat} (hk : k < len)
    (hlen : len ≤ 8) : some (payloadByte p lanes len k) = lanes[laneIndex p len k]? := by
  rw [payloadByte, Vector.getElem?_eq_getElem (laneIndex_lt p hk hlen), Option.getD_some]

/-! ## The statements -/

/-- Settles O12: the buffer lies in the buffer memory, so the fill is made, and `read_fill` gives
every byte after it. -/
theorem rxClearZeroesTheBuffer : Obligations.RxClearZeroesTheBuffer := by
  intro s hfsm hwf hin
  rw [exec_read_of_rxClear hfsm, rxClear_of_inSpace (inSpace_of_le hin)]
  exact ⟨_, rfl, fill_wf _ _ _ _ hwf, fun a => read_fill _ _ _ _ a hwf⟩

/-- Settles O17: `copyDown` stores `payloadByte` of each index and nothing else, and each lane
named, in the calls and in the bytes, is `laneIndex` under the setting of `SWAP_PARTIAL`. -/
theorem rxCopyStoresTheCorrectedPayload : Obligations.RxCopyStoresTheCorrectedPayload := by
  intro s slot hfsm hwf hlen hslot hin
  rw [exec_read_of_rxCopy hfsm, rxCopy_of_inSpace hslot hlen (inSpace_of_le hin)]
  have hread (a : Nat) := read_copyDown (payloadByte s.params slot.lanes s.dp.len.toNat) s.mem
    (bufAddr s s.dp.count) s.dp.len.toNat a hwf
  refine ⟨_, _, rfl, copyDown_wf _ _ _ _ hwf, fun hp => ?fixedCalls, fun hp => ?presentCalls,
    fun k hk => ?byte, fun a ha => ?other⟩
  case fixedCalls => simp only [laneCalls, laneIndex_of_fixedLanes hp]
  case presentCalls => simp only [laneCalls, laneIndex_of_presentOnly hp]
  case byte =>
    have hbyte := hread (bufAddr s s.dp.count + k)
    rw [if_pos (by omega), Nat.add_sub_cancel_left] at hbyte
    have hlane := (congrArg some hbyte).trans (some_payloadByte s.params slot.lanes hk hlen)
    exact ⟨fun hp => by rwa [laneIndex_of_fixedLanes hp] at hlane,
      fun hp => by rwa [laneIndex_of_presentOnly hp] at hlane⟩
  case other =>
    rw [hread, if_neg]
    rw [bufAddr]
    omega

/-- Settles O11: the four outcomes of the buffer check, in the rule's order. -/
theorem rxStartChecksTheBuffer : Obligations.RxStartChecksTheBuffer := by
  intro s hfsm hf
  rw [exec_read_of_rxStart hfsm]
  refine ⟨fun h => ?empty, fun hpos h => rxStart_of_short hpos h hf,
    fun h hout => rxStart_of_outside h hout hf, fun h hin => rxStart_of_inside h hin⟩
  case empty => rw [rxStart_of_empty h, finish_of_fits (Nat.two_pow_pos _)]

/-- Settles O13: the budget is tested first, and 0 fits the cursor's register. -/
theorem rxPassTopWrapsTheCursor : Obligations.RxPassTopWrapsTheCursor := by
  intro s hfsm
  rw [exec_read_of_rxPassTop hfsm]
  refine ⟨rxPassTop_of_spent, fun h hc => ?wrap, rxPassTop_of_lt⟩
  case wrap => rw [rxPassTop_of_wrap h hc, setCursor_of_le (Nat.zero_le _)]; rfl

/-- Settles O14: the end of the pass makes no call; else the bus state decides, and the running
count is returned uncut. -/
theorem rxBusEndsTheReadOnBusOff : Obligations.RxBusEndsTheReadOnBusOff := by
  intro s hfsm hfits
  rw [exec_read_of_rxBus hfsm]
  refine ⟨rxBus_of_passOver, fun hc hb => ?busOff, rxBus_of_not_busOff⟩
  case busOff => rw [rxBus_of_busOff hc hb, finish_of_fits (s := logCall s .busState) hfits]; rfl

/-- Settles O15: the next cursor is at most `N_RX`, so its register holds it. -/
theorem rxTestExaminesTheSlot : Obligations.RxTestExaminesTheSlot := by
  intro s slot hfsm hc hslot
  rw [exec_read_of_rxTest hfsm]
  refine ⟨rxTest_of_full hslot, fun hempty => ?empty⟩
  case empty =>
    rw [rxTest_of_empty hslot hempty, setCursor_of_le (s := logCall s (.rxFull s.cursor)) hc]
    rfl

/-- Settles O16: a rejected frame is released and passed; an accepted one is counted and measured
(`acceptedFrame`) before either fault, and goes on to be copied where it fits. -/
theorem rxFilterTakesOrRejectsTheFrame : Obligations.RxFilterTakesOrRejectsTheFrame := by
  intro s slot hfsm hf hc hp hslot
  rw [exec_read_of_rxFilter hfsm]
  have hframe := acceptedFrame_of_lt hc hp slot.len
  have hunfaulted : (acceptedFrame s slot.len).fault = false := hf
  refine ⟨fun hrej => ?rejected, fun hacc => ?accepted⟩
  case rejected =>
    have hno : accept s slot.id = false :=
      Bool.eq_false_iff.2 fun h => hrej ((accept_iff_fields s slot.id).1 h)
    rw [rxFilter_of_rejected hslot hno,
      setCursor_of_le (s := rxRelease (logCall s (.rxId s.cursor)) s.cursor) hc,
      rxRelease_of_slot (s := logCall s (.rxId s.cursor)) hslot]
    rfl
  case accepted =>
    have hyes : accept s slot.id = true := (accept_iff_fields s slot.id).2 hacc
    refine ⟨fun hlen => ?overlong, fun hlen hover => ?overrun, fun hlen hroom => ?taken⟩
    case overlong =>
      rw [rxFilter_of_overlong hslot hyes hlen, raiseFault_of_unfaulted hunfaulted, hframe]
    case overrun =>
      rw [rxFilter_of_overrun hslot hyes hlen hover, raiseFault_of_unfaulted hunfaulted, hframe]
    case taken => rw [rxFilter_of_taken hslot hyes hlen hroom, hframe]; rfl

/-- Settles O18: the release frees the slot under the cursor, and `ECHO_EN` alone picks the next
state. -/
theorem rxReleaseFreesTheSlot : Obligations.RxReleaseFreesTheSlot := by
  intro s slot hfsm hslot
  rw [exec_read_of_rxRelease hfsm, rxReleaseStep_of_slot hslot, rxRelease_of_slot hslot, echoEn]
  refine ⟨fun he => ?echo, fun he => ?advance⟩
  case echo => rw [he]; rfl
  case advance => rw [he]; rfl

/-- Settles O20: `complete` on the advanced count is `IsPacket` of it, and both the count and the
next cursor fit their registers. -/
theorem rxAdvanceEndsOnACompletePacket : Obligations.RxAdvanceEndsOnACompletePacket := by
  intro s hfsm hc hfits hreadable
  rw [exec_read_of_rxAdvance hfsm]
  refine ⟨fun hpacket => ?packet, fun hnot => ?more⟩
  case packet =>
    rw [rxAdvance_of_complete hfits (complete_of_packet hreadable hpacket)]
    refine ⟨fun hadv => ?advance, fun hstay => ?stay⟩
    case advance =>
      rw [if_pos hadv, setCursor_of_le (s := countedFrame s) hc]
      exact congrArg _
        (finish_of_fits (s := { countedFrame s with cursor := s.cursor + 1 }) hfits .ok)
    case stay =>
      rw [hstay, if_neg Bool.false_ne_true]
      exact congrArg _ (finish_of_fits (s := countedFrame s) hfits .ok)
  case more =>
    rw [rxAdvance_of_incomplete hfits (complete_of_not_packet hreadable hnot),
      setCursor_of_le (s := countedFrame s) hc]
    rfl

/-- Settles O21: only a pass that accepted nothing makes the `Delay` and spends the budget. -/
theorem rxPassEndSpendsOnlyOnAnIdlePass : Obligations.RxPassEndSpendsOnlyOnAnIdlePass := by
  intro s hfsm
  rw [exec_read_of_rxPassEnd hfsm]
  exact ⟨rxPassEnd_of_idle, rxPassEnd_of_taken⟩

/-- Settles O22: `complete` on the bytes the buffer holds now is `IsPacket`, and the count is
returned uncut. -/
theorem rxFinalChecksOnceMore : Obligations.RxFinalChecksOnceMore := by
  intro s hfsm hfits hreadable
  rw [exec_read_of_rxFinal hfsm]
  refine ⟨fun hpacket => ?packet, fun hnot => ?timeout⟩
  case packet =>
    rw [rxFinal_of_complete (complete_of_packet hreadable hpacket), finish_of_fits hfits]
  case timeout =>
    rw [rxFinal_of_incomplete (complete_of_not_packet hreadable hnot), finish_of_fits hfits]

end Sys2Proof.Machine

/-!
SUPPORT. The datapath units (42_datapath.md rules R170, R174, R175 and R176): the lengths of the
chunks, the bytes a run of chunks covers, and the statement on each unit.
-/

namespace Sys2Proof.Machine

open Sys2Proof.Config Sys2Proof.Safety

/-! ## The chunker (rule R176) -/

section
variable {size off : Nat}

theorem chunkLength_of_full (h : off + 8 ≤ size) : chunkLength size off = 8 :=
  Nat.min_eq_left (Nat.le_sub_of_add_le' h)

theorem chunkLength_of_last (h : size ≤ off + 8) : chunkLength size off = size - off :=
  Nat.min_eq_right (Nat.sub_le_iff_le_add'.2 h)

end

/-- Every chunk but the last ends within the buffer. -/
theorem chunk_end_le_of_not_last {size k : Nat} (hk : k + 1 < chunkCount size) :
    8 * k + 8 ≤ size := by
  unfold chunkCount at hk
  omega

/-- The last chunk begins within the buffer and reaches its end. -/
theorem last_chunk_spans_end {size : Nat} (hsize : 0 < size) :
    8 * (chunkCount size - 1) < size ∧ size ≤ 8 * (chunkCount size - 1) + 8 := by
  unfold chunkCount
  omega

theorem size_le_chunkCount (size : Nat) : size ≤ 8 * chunkCount size := by
  unfold chunkCount
  omega

/-- Adjacent stretches of memory join. -/
theorem bytesAt_add (m : Memory) (base a b : Nat) :
    bytesAt m base (a + b) = bytesAt m base a ++ bytesAt m (base + a) b := by
  simp [bytesAt, List.range_add, Nat.add_assoc]

theorem chunkFrames_length (m : Memory) (id : FrameId) (base size k n : Nat) :
    (chunkFrames m id base size k n).length = n := by
  induction n generalizing k with
  | zero => rfl
  | succ n ih => rw [chunkFrames, List.length_cons, ih]

/-- The bytes of `n` chunks from chunk `k` on are the buffer's from offset `8 * k` on: `8 * n` of
them, or as many as the buffer still has. -/
theorem chunkFrames_bytes (m : Memory) (id : FrameId) (base size k n : Nat) :
    ((chunkFrames m id base size k n).flatMap fun f => f.2.2) =
      bytesAt m (base + 8 * k) (min (8 * n) (size - 8 * k)) := by
  induction n generalizing k with
  | zero => rw [Nat.mul_zero, Nat.zero_min]; rfl
  | succ n ih =>
    rw [chunkFrames, List.flatMap_cons, ih]
    rcases Nat.le_total (8 * k + 8) size with hfull | hlast
    · have hlen : min (8 * (n + 1)) (size - 8 * k) = 8 + min (8 * n) (size - 8 * (k + 1)) := by
        omega
      rw [chunkLength_of_full hfull, hlen, bytesAt_add, Nat.mul_succ, Nat.add_assoc]
    · have hnone : min (8 * n) (size - 8 * (k + 1)) = 0 := by omega
      have hrest : min (8 * (n + 1)) (size - 8 * k) = size - 8 * k := by omega
      rw [chunkLength_of_last hlast, hnone, hrest]
      exact List.append_nil _

/-- Settles O54: the lengths follow from where a chunk ends, and the joined bytes are
`chunkFrames_bytes` for all the chunks from the first. -/
theorem chunksCoverTheBuffer : Obligations.ChunksCoverTheBuffer := by
  intro m id base size hsize
  obtain ⟨hstart, hend⟩ := last_chunk_spans_end hsize
  refine ⟨fun off hoff => ⟨rfl, chunkLength_pos hoff⟩,
    fun k hk => chunkLength_of_full (chunk_end_le_of_not_last hk),
    chunkLength_pos hstart, chunkLength_of_last hend, chunkLength_le _ _,
    chunkFrames_length m id base size 0 _, ?bytes⟩
  case bytes =>
    calc ((chunkFrames m id base size 0 (chunkCount size)).flatMap fun f => f.2.2)
        = bytesAt m base (min (8 * chunkCount size) size) :=
          chunkFrames_bytes m id base size 0 _
      _ = bytesAt m base size := by rw [Nat.min_eq_right (size_le_chunkCount size)]

/-! ## The lane map (rule R170) -/

/-- Settles O50: the formula is the model's own; the bits and the table are eight lanes each. -/
theorem laneMapAsTabled : Obligations.LaneMapAsTabled :=
  ⟨fun _ => rfl, by decide, by decide⟩

/-! ## The packet-boundary detector (rule R174) -/

/-- Settles O52: where the bytes exist, the answer is the decision of `IsPacket`. -/
theorem completeRecognisesExactlyThePacket : Obligations.CompleteRecognisesExactlyThePacket := by
  intro s n hreadable
  rw [complete_of_readable hreadable, Option.some_inj, Option.some_inj]
  exact ⟨decide_eq_true_iff, decide_eq_false_iff_not⟩

/-! ## The address filter (rule R175) -/

/-- Settles O53: `FILTER_EN` and `BCAST_EN` are bits 0 and 1 of `CONFIG` (10_state.md rule R24). -/
theorem filterAcceptsOwnAndBroadcast : Obligations.FilterAcceptsOwnAndBroadcast :=
  accept_iff_fields

end Sys2Proof.Machine

/-!
SUPPORT. The faulted block (60_exceptions.md rule R207): what the turn of each agent leaves of a
recorded fault, the step on each host access to the faulted block, and the statement on both.
-/

namespace Sys2Proof.Machine

/-! ## A fault that a turn leaves as it was -/

/-- `t` has the fault flag, the state, the cause and the value that `s` has. -/
structure SameFault (s t : State) : Prop where
  flag : t.fault = s.fault
  state : t.fsm = s.fsm
  cause : t.faultCause = s.faultCause
  info : t.faultInfo = s.faultInfo

theorem SameFault.refl (s : State) : SameFault s s := ⟨rfl, rfl, rfl, rfl⟩

theorem SameFault.trans {s t u : State} (hst : SameFault s t) (htu : SameFault t u) :
    SameFault s u :=
  ⟨htu.flag.trans hst.flag, htu.state.trans hst.state, htu.cause.trans hst.cause,
    htu.info.trans hst.info⟩

theorem popTurn_sameFault (s : State) : SameFault s (popTurn s) := ⟨rfl, rfl, rfl, rfl⟩

/-- The environment reaches no register of the block, faulted or not (10_state.md rule R34). -/
theorem envStep_sameFault {s t : State} {e : EnvStep} (h : envStep s e = .next t) :
    SameFault s t := by
  obtain ⟨_, _, _, _, _, _, _, _, rfl⟩ | ⟨_, _, rfl⟩ | ⟨_, _, _, rfl⟩ | ⟨_, _, _, rfl⟩ |
    ⟨_, _, _, rfl⟩ := envStep_cases h
  all_goals exact ⟨rfl, rfl, rfl, rfl⟩

/-- `FAULT` has no block step: the block's turn changes nothing (10_state.md rule R35). -/
theorem blockTurn_of_fault {s : State} (hstate : s.fsm = .fault) : blockTurn s = .next s := by
  simp only [blockTurn, running, hstate]

/-! ## The turns of the other agents on a faulted block -/

section
variable {s t : State}

theorem raiseFault_sameFault (hf : s.fault = true) (hstate : s.fsm = .fault) (c : FaultCause)
    (n : Nat) : SameFault s (raiseFault s c n) := by
  rw [raiseFault_of_faulted hf]
  exact ⟨rfl, hstate.symm, rfl, rfl⟩

theorem hostWrite_sameFault {offset width : Nat} {data : Word} (hf : s.fault = true)
    (hstate : s.fsm = .fault) (h : hostWrite s offset width data = .next t) : SameFault s t := by
  cases hs : shapeOk offset width with
  | true =>
    rw [hostWrite_of_faulted hs hf] at h
    cases h
    exact .refl s
  | false =>
    rw [hostWrite_of_misshapen hs] at h
    cases h
    exact raiseFault_sameFault hf hstate _ _

theorem hostRead_sameFault {offset width : Nat} (hf : s.fault = true) (hstate : s.fsm = .fault)
    (h : hostRead s offset width = .next t) : SameFault s t := by
  obtain ⟨_, rfl⟩ | ⟨_, rfl⟩ := hostRead_cases h
  · exact raiseFault_sameFault hf hstate _ _
  · exact ⟨rfl, rfl, rfl, rfl⟩

theorem hostStep_sameFault {u : HostStep} (hf : s.fault = true) (hstate : s.fsm = .fault)
    (h : hostStep s u = .next t) : SameFault s t := by
  obtain ⟨_, _, _, _, _, _, hwrite⟩ | ⟨_, _, _, _, _, hread⟩ |
    ⟨_, ⟨_, _, _, _, rfl⟩ | ⟨_, _, _, rfl⟩ | ⟨_, _, _, _, _, rfl⟩ | ⟨_, rfl⟩⟩ := hostStep_cases h
  · exact hostWrite_sameFault hf hstate hwrite
  · exact hostRead_sameFault hf hstate hread
  all_goals exact ⟨rfl, rfl, rfl, rfl⟩

/-- No agent but the platform's `RESET` ends or changes a fault (60_exceptions.md rule R207). -/
theorem takeTurn_sameFault {u : Turn} (hf : s.fault = true) (hstate : s.fsm = .fault)
    (hu : u ≠ .reset) (h : takeTurn s u = .next t) : SameFault s t := by
  obtain ⟨_, hblock⟩ | ⟨_, _, henv⟩ | ⟨_, _, hhost⟩ | ⟨hreset, _⟩ := takeTurn_cases h
  · rw [blockTurn_of_fault hstate] at hblock
    cases hblock
    exact .refl s
  · exact envStep_sameFault henv
  · exact hostStep_sameFault hf hstate hhost
  · exact absurd hreset hu

theorem step_sameFault (hf : s.fault = true) (hstate : s.fsm = .fault) (hu : nextTurn s ≠ .reset)
    (h : step s = .next t) : SameFault s t := by
  obtain ⟨_, hturn⟩ := step_cases h
  exact (popTurn_sameFault s).trans (takeTurn_sameFault (s := popTurn s) hf hstate hu hturn)

/-! ## One step of a faulted block -/

theorem step_of_block_of_fault (hfits : fits s = true) (hstate : s.fsm = .fault)
    (hu : nextTurn s = .block) : step s = .next (popTurn s) := by
  rw [step_of_fits hfits, hu]
  exact blockTurn_of_fault (s := popTurn s) hstate

/-- A fault raised on a block that is stopped already changes nothing at all. -/
theorem raiseFault_of_stopped (hf : s.fault = true) (hstate : s.fsm = .fault)
    (hbusy : s.busy = false) (hmask : s.irqMask = false) (c : FaultCause) (n : Nat) :
    raiseFault s c n = s := by
  rw [raiseFault_of_faulted hf]
  cases s
  cases hbusy
  cases hmask
  cases hstate
  rfl

theorem step_of_reset {rest : List Turn} (hfits : fits s = true) (ha : s.agenda = .reset :: rest) :
    step s = .next (blockReset { s with agenda := rest }) := step_of_cons hfits ha

end

/-! ## The statement -/

/-- Settles O33: no turn but `RESET` changes what `SameFault` compares, and the step on each access,
on `RESET` and on the block's turn is the equation above for it. -/
theorem faultIsLeftOnlyByReset : Obligations.FaultIsLeftOnlyByReset := by
  refine ⟨?keeps, ?aligned, ?misshapen, ?reset, ?block⟩
  case keeps =>
    intro s t hf hstate h hu
    have hsame := step_sameFault hf hstate hu h
    exact ⟨hsame.flag.trans hf, hsame.state.trans hstate, hsame.cause, hsame.info⟩
  case aligned =>
    intro s rest offset w hfits hf _ haligned
    have hs : shapeOk offset 4 = true := (shapeOk_iff offset 4).2 ⟨rfl, haligned⟩
    refine ⟨fun ha => ?write, fun ha => step_of_wordRead hfits ha haligned rfl⟩
    case write =>
      rw [step_of_regWrite hfits ha]
      exact hostWrite_of_faulted (s := { s with agenda := rest }) hs hf
  case misshapen =>
    intro s rest offset width w hfits hf hstate hbusy hmask hbad ha
    rw [step_of_misshapen hfits hbad ha,
      raiseFault_of_stopped (s := { s with agenda := rest }) hf hstate hbusy hmask]
  case reset =>
    intro s rest hfits ha
    exact ⟨_, step_of_reset hfits ha, rfl, rfl⟩
  case block =>
    intro s hfits _ hstate hu
    exact step_of_block_of_fault hfits hstate hu

end Sys2Proof.Machine

/-!
SUPPORT. What one micro-step leaves unchanged (10_state.md rules R23 to R27 and R38): the frame both
commands share, the frame of the Transmitter's micro-steps and that of the Receiver's, each proved
once for every micro-step, and the two statements on them.
-/

namespace Sys2Proof.Machine

open Sys2Proof.Config Sys2Proof.Safety

/-! ## The frames -/

/-- What no micro-step changes, and what it changes only at the end of a command or with a fault. -/
structure StepFrame (s t : State) : Prop where
  params : t.params = s.params
  bufBase : t.bufBase = s.bufBase
  bufSize : t.bufSize = s.bufSize
  timeout : t.timeout = s.timeout
  config : t.config = s.config
  ownId : t.ownId = s.ownId
  bcastId : t.bcastId = s.bcastId
  txId : t.txId = s.txId
  lastOp : t.lastOp = s.lastOp
  tec : t.periph.tec = s.periph.tec
  bus : t.periph.bus = s.periph.bus
  slotTypeOk : t.slotTypeOk = s.slotTypeOk
  agenda : t.agenda = s.agenda
  refrain : t.refrain = s.refrain
  readData : t.readData = s.readData
  bufData : t.bufData = s.bufData
  draws : t.draws = s.draws
  result : t.busy = true → t.result = s.result ∧ t.countReg = s.countReg
  cause : t.fault = false → t.faultCause = s.faultCause ∧ t.faultInfo = s.faultInfo

/-- What no micro-step of a WRITE changes, the host's or an echo's. -/
structure TxFrame (s t : State) : Prop extends StepFrame s t where
  mem : t.mem = s.mem
  cursor : t.cursor = s.cursor
  slots : t.periph.slots = s.periph.slots
  tx : s.fsm ≠ .txTrigger → t.periph.tx = s.periph.tx
  count : t.dp.count = s.dp.count
  rxBudget : t.dp.rxBudget = s.dp.rxBudget
  produced : t.dp.produced = s.dp.produced
  len : t.dp.len = s.dp.len
  txBase : t.dp.txBase = s.dp.txBase
  txSize : t.dp.txSize = s.dp.txSize
  txTimeout : t.dp.txTimeout = s.dp.txTimeout
  txRet : t.dp.txRet = s.dp.txRet
  echo : s.dp.txRet = .rx → t.result = s.result ∧ t.countReg = s.countReg
  host : s.dp.txRet = .host → t.echoErr = s.echoErr

/-- What no micro-step of the Receiver changes, and which of them changes the rest. -/
structure RxFrame (s t : State) : Prop extends StepFrame s t where
  echoErr : t.echoErr = s.echoErr
  tx : t.periph.tx = s.periph.tx
  txBudget : t.dp.txBudget = s.dp.txBudget
  txOff : t.dp.txOff = s.dp.txOff
  chunkLen : t.dp.chunkLen = s.dp.chunkLen
  chunk : t.dp.chunk = s.dp.chunk
  errSnap : t.dp.errSnap = s.dp.errSnap
  dp : s.fsm ≠ .rxEcho → t.dp = { s.dp with
    count := t.dp.count, rxBudget := t.dp.rxBudget, produced := t.dp.produced, len := t.dp.len }
  mem : s.fsm ≠ .rxClear → s.fsm ≠ .rxCopy → t.mem = s.mem
  slots : s.fsm ≠ .rxFilter → s.fsm ≠ .rxRelease → t.periph.slots = s.periph.slots
  others : ∀ j : Nat, j ≠ s.cursor → t.periph.slots[j]? = s.periph.slots[j]?

section
variable {s t : State}

/-! ## The Transmitter -/

/-- The return of a WRITE, whatever calls were logged before it (rule R133). -/
theorem txReturn_frame (s : State) (cs : List Call) (r : Result) (n : Nat) :
    TxFrame s (txReturn { s with calls := cs } r n) := by
  cases hr : s.dp.txRet with
  | host =>
    rw [txReturn_host { s with calls := cs } r n hr]
    constructor
    case toStepFrame => constructor <;> simp
    all_goals simp [hr]
  | rx =>
    rw [txReturn_rx { s with calls := cs } r n hr]
    constructor
    case toStepFrame => constructor <;> simp
    all_goals simp [hr]

theorem raiseFault_txFrame (s : State) (c : FaultCause) (n : Nat) :
    TxFrame s (raiseFault s c n) := by
  constructor
  case toStepFrame => constructor <;> simp
  all_goals simp

theorem txStart_frame (h : txStart s = .next t) : TxFrame s t := by
  obtain ⟨_, rfl⟩ | ⟨_, _, rfl⟩ | ⟨_, _, _, rfl⟩ | ⟨_, _, _, rfl⟩ := txStart_cases h
  case inl => exact raiseFault_txFrame s _ _
  case inr.inl => exact txReturn_frame s s.calls _ _
  case inr.inr.inl => exact raiseFault_txFrame s _ _
  case inr.inr.inr =>
    constructor
    case toStepFrame => constructor <;> simp
    all_goals simp

/-- A polling wait is a change of `txBudget` and the call log alone. -/
theorem txWait_frame (s : State) (cs : List Call) (f : Fsm) :
    TxFrame s (goto (txWait { s with calls := cs }) f) := by
  rw [txWait_eq]
  constructor
  case toStepFrame => constructor <;> simp
  all_goals simp

theorem txWaitFree_frame (h : txWaitFree s = .next t) : TxFrame s t := by
  obtain ⟨_, rfl⟩ | ⟨_, _, rfl⟩ | ⟨_, _, rfl⟩ := txWaitFree_cases h
  case inl => exact txReturn_frame s s.calls _ _
  case inr.inl =>
    constructor
    case toStepFrame => constructor <;> simp
    all_goals simp
  case inr.inr => exact txWait_frame s _ (txWait (logCall s .txFull)).fsm

theorem txLoad_frame (h : txLoad s = .next t) : TxFrame s t := by
  obtain ⟨_, rfl⟩ := txLoad_cases h
  constructor
  case toStepFrame => constructor <;> simp
  all_goals simp

theorem txTrigger_frame (hfsm : s.fsm = .txTrigger) (h : txTrigger s = .next t) :
    TxFrame s t := by
  rw [txTrigger_eq] at h
  cases h
  constructor
  case toStepFrame => constructor <;> simp
  all_goals simp [hfsm]

theorem txPollErr_frame (h : txPollErr s = .next t) : TxFrame s t := by
  obtain ⟨_, rfl⟩ | ⟨_, _, rfl⟩ | ⟨_, _, rfl⟩ := txPollErr_cases h
  case inl => exact txReturn_frame s s.calls _ _
  case inr.inl => exact txReturn_frame s _ _ _
  case inr.inr =>
    constructor
    case toStepFrame => constructor <;> simp
    all_goals simp

theorem txPollFree_frame (h : txPollFree s = .next t) : TxFrame s t := by
  obtain ⟨_, rfl⟩ | ⟨_, rfl⟩ := txPollFree_cases h
  case inl =>
    constructor
    case toStepFrame => constructor <;> simp
    all_goals simp
  case inr => exact txWait_frame s _ _

theorem txFinal_frame (h : txFinal s = .next t) : TxFrame s t := by
  obtain ⟨_, rfl⟩ | ⟨_, rfl⟩ := txFinal_cases h <;> exact txReturn_frame s _ _ _

/-- The micro-step of every `TX_*` state keeps the Transmitter's frame. -/
theorem microStep_txFrame (hw : writeRuns s = true) (h : microStep s = .next t) :
    TxFrame s t := by
  unfold microStep at h
  unfold writeRuns at hw
  cases hf : s.fsm <;> simp only [hf] at h hw
  case txStart => exact txStart_frame h
  case txWaitFree => exact txWaitFree_frame h
  case txLoad => exact txLoad_frame h
  case txTrigger => exact txTrigger_frame hf h
  case txPollErr => exact txPollErr_frame h
  case txPollFree => exact txPollFree_frame h
  case txFinal => exact txFinal_frame h
  all_goals cases hw

/-! ## The Receiver -/

theorem finish_rxFrame (s : State) (cs : List Call) (r : Result) (n : Nat) :
    RxFrame s (finish { s with calls := cs } r n) := by
  constructor
  case toStepFrame => constructor <;> simp
  all_goals simp

theorem rxStart_frame (h : rxStart s = .next t) : RxFrame s t := by
  obtain ⟨_, rfl⟩ | ⟨_, _, rfl⟩ | ⟨_, _, rfl⟩ | ⟨_, _, rfl⟩ := rxStart_cases h
  case inl => exact finish_rxFrame s s.calls _ _
  all_goals
    constructor
    case toStepFrame => constructor <;> simp
    all_goals simp

theorem rxClear_frame (hfsm : s.fsm = .rxClear) (h : rxClear s = .next t) : RxFrame s t := by
  obtain ⟨_, rfl⟩ := rxClear_cases h
  constructor
  case toStepFrame => constructor <;> simp
  all_goals simp [hfsm]

theorem rxPassTop_frame (h : rxPassTop s = .next t) : RxFrame s t := by
  obtain ⟨_, rfl⟩ | ⟨_, _, rfl⟩ | ⟨_, _, rfl⟩ := rxPassTop_cases h
  all_goals
    constructor
    case toStepFrame => constructor <;> simp
    all_goals simp

theorem rxBus_frame (h : rxBus s = .next t) : RxFrame s t := by
  obtain ⟨_, rfl⟩ | ⟨_, _, rfl⟩ | ⟨_, _, rfl⟩ := rxBus_cases h
  case inr.inl => exact finish_rxFrame s _ _ _
  all_goals
    constructor
    case toStepFrame => constructor <;> simp
    all_goals simp

theorem rxTest_frame (h : rxTest s = .next t) : RxFrame s t := by
  obtain ⟨_, _, ⟨_, rfl⟩ | ⟨_, rfl⟩⟩ := rxTest_cases h
  all_goals
    constructor
    case toStepFrame => constructor <;> simp
    all_goals simp

/-- A release touches no slot but its own. -/
theorem rxRelease_slots_of_ne (s : State) {i j : Nat} (hj : j ≠ i) :
    (rxRelease s i).periph.slots[j]? = s.periph.slots[j]? := by
  simp [rxRelease, logCall, Ne.symm hj]

@[simp] theorem rxRelease_tx (s : State) (i : Nat) :
    (rxRelease s i).periph.tx = s.periph.tx := rfl
@[simp] theorem rxRelease_tec (s : State) (i : Nat) :
    (rxRelease s i).periph.tec = s.periph.tec := rfl
@[simp] theorem rxRelease_bus (s : State) (i : Nat) :
    (rxRelease s i).periph.bus = s.periph.bus := rfl

theorem acceptedFrame_frame (s : State) (len : FrameLen) (f : Fsm) :
    RxFrame s (goto (acceptedFrame s len) f) := by
  unfold acceptedFrame
  constructor
  case toStepFrame => constructor <;> simp
  all_goals simp

theorem acceptedFrame_fault_frame (s : State) (len : FrameLen) (c : FaultCause) (n : Nat) :
    RxFrame s (raiseFault (acceptedFrame s len) c n) := by
  unfold acceptedFrame
  constructor
  case toStepFrame => constructor <;> simp
  all_goals simp

theorem rxFilter_frame (hfsm : s.fsm = .rxFilter) (h : rxFilter s = .next t) : RxFrame s t := by
  obtain ⟨_, _, ⟨_, rfl⟩ | ⟨_, _, rfl⟩ | ⟨_, _, _, rfl⟩ | ⟨_, _, _, rfl⟩⟩ := rxFilter_cases h
  · constructor
    case toStepFrame => constructor <;> simp
    case others => exact fun j hj => rxRelease_slots_of_ne (logCall s (.rxId s.cursor)) hj
    all_goals simp [hfsm]
  · exact acceptedFrame_fault_frame s _ _ _
  · exact acceptedFrame_fault_frame s _ _ _
  · exact acceptedFrame_frame s _ _

theorem rxCopy_frame (hfsm : s.fsm = .rxCopy) (h : rxCopy s = .next t) : RxFrame s t := by
  obtain ⟨_, _, _, _, rfl⟩ := rxCopy_cases h
  constructor
  case toStepFrame => constructor <;> simp
  all_goals simp [hfsm]

theorem rxReleaseStep_frame (hfsm : s.fsm = .rxRelease) (h : rxReleaseStep s = .next t) :
    RxFrame s t := by
  obtain ⟨_, rfl⟩ := rxReleaseStep_cases h
  constructor
  case toStepFrame => constructor <;> simp
  case others => exact fun j hj => rxRelease_slots_of_ne s hj
  all_goals simp [hfsm]

theorem rxEcho_frame (hfsm : s.fsm = .rxEcho) (h : rxEcho s = .next t) : RxFrame s t := by
  cases h
  constructor
  case toStepFrame => constructor <;> simp
  all_goals simp [hfsm]

/-- The end of a READ with `OK`, whether or not the cursor passes the completing slot. -/
theorem finish_advanced_frame (s : State) (b : Bool) (c v n : Nat) :
    RxFrame s (finish (if b then setCursor (setDp s { s.dp with count := c }) v
      else setDp s { s.dp with count := c }) .ok n) := by
  cases b
  all_goals
    constructor
    case toStepFrame => constructor <;> simp
    all_goals simp

theorem rxAdvance_frame (h : rxAdvance s = .next t) : RxFrame s t := by
  obtain ⟨_, rfl⟩ | ⟨_, rfl⟩ := rxAdvance_cases h
  case inl => exact finish_advanced_frame s _ _ _ _
  case inr =>
    constructor
    case toStepFrame => constructor <;> simp
    all_goals simp

theorem rxPassEnd_frame (h : rxPassEnd s = .next t) : RxFrame s t := by
  obtain ⟨_, rfl⟩ | ⟨_, rfl⟩ := rxPassEnd_cases h
  all_goals
    constructor
    case toStepFrame => constructor <;> simp
    all_goals simp

theorem rxFinal_frame (h : rxFinal s = .next t) : RxFrame s t := by
  obtain ⟨_, rfl⟩ | ⟨_, rfl⟩ := rxFinal_cases h <;> exact finish_rxFrame s s.calls _ _

/-- A block that waits makes no move; it keeps every frame. -/
theorem RxFrame.refl (s : State) : RxFrame s s := by
  constructor
  case toStepFrame => constructor <;> simp
  all_goals simp

/-- The micro-step of every other state keeps the Receiver's frame. -/
theorem microStep_rxFrame (hw : writeRuns s = false) (h : microStep s = .next t) :
    RxFrame s t := by
  unfold microStep at h
  unfold writeRuns at hw
  cases hf : s.fsm <;> simp only [hf] at h hw
  case idle => cases h; exact .refl s
  case fault => cases h; exact .refl s
  case rxStart => exact rxStart_frame h
  case rxClear => exact rxClear_frame hf h
  case rxPassTop => exact rxPassTop_frame h
  case rxBus => exact rxBus_frame h
  case rxTest => exact rxTest_frame h
  case rxFilter => exact rxFilter_frame hf h
  case rxCopy => exact rxCopy_frame hf h
  case rxRelease => exact rxReleaseStep_frame hf h
  case rxEcho => exact rxEcho_frame hf h
  case rxAdvance => exact rxAdvance_frame h
  case rxPassEnd => exact rxPassEnd_frame h
  case rxFinal => exact rxFinal_frame h
  all_goals cases hw

/-- The frame that every micro-step keeps. -/
theorem microStep_frame (h : microStep s = .next t) : StepFrame s t := by
  cases hw : writeRuns s with
  | true => exact (microStep_txFrame hw h).toStepFrame
  | false => exact (microStep_rxFrame hw h).toStepFrame

/-! ## The bytes of the memory that READ changes -/

/-- `RX_CLEAR` stores inside the buffer alone (41_receive.md rule R142). -/
theorem rxClear_reads_outside (hwf : s.mem.wf) (h : rxClear s = .next t) {a : Nat}
    (ha : a < s.bufBase ∨ s.bufBase + s.bufSize ≤ a) : t.mem.read a = s.mem.read a := by
  obtain ⟨_, rfl⟩ := rxClear_cases h
  exact (read_fill _ _ _ _ a hwf).trans (if_neg (by omega))

/-- `RX_COPY` stores inside the frame's bytes alone (41_receive.md rule R148). -/
theorem rxCopy_reads_outside (hwf : s.mem.wf) (h : rxCopy s = .next t) {a : Nat}
    (ha : a < bufAddr s s.dp.count ∨ bufAddr s s.dp.count + s.dp.len.toNat ≤ a) :
    t.mem.read a = s.mem.read a := by
  obtain ⟨_, _, _, _, rfl⟩ := rxCopy_cases h
  exact (read_copyDown _ _ _ _ a hwf).trans (if_neg (by omega))

/-- A WRITE that returns to the host is the host's (10_state.md rule R27). -/
theorem running_of_host (hw : writeRuns s = true) (hr : s.dp.txRet = .host) :
    running s = some .write := by
  unfold writeRuns at hw
  cases hf : s.fsm <;> simp [running, hf, hr] at hw ⊢

/-- A WRITE that returns to the Receiver is a READ's echo (10_state.md rule R27). -/
theorem running_of_echo (hw : writeRuns s = true) (hr : s.dp.txRet = .rx) :
    running s = some .read := by
  unfold writeRuns at hw
  cases hf : s.fsm <;> simp [running, hf, hr] at hw ⊢

end

/-! ## The statements -/

/-- Settles O31: the Transmitter's frame; which command runs says where the WRITE returns. -/
theorem transmitterFrame : Obligations.TransmitterFrame := by
  intro s t i hrun hw h
  rw [exec_of_running hrun] at h
  have f := microStep_txFrame hw h
  refine ⟨fun a => by rw [f.mem], f.params, f.bufBase, f.bufSize, f.timeout, f.config, f.ownId,
    f.bcastId, f.txId, f.cursor, f.lastOp, f.count, f.rxBudget, f.produced, f.len, f.txBase,
    f.txSize, f.txTimeout, f.txRet, f.slots, f.tec, f.bus, f.slotTypeOk, f.agenda, f.refrain,
    f.readData, f.bufData, f.draws, f.tx, ?echo, fun hb _ => f.result hb, f.cause, ?host⟩
  case echo =>
    rintro rfl
    cases hr : s.dp.txRet with
    | host => cases hrun.symm.trans (running_of_host hw hr)
    | rx => exact f.echo hr
  case host =>
    rintro rfl
    cases hr : s.dp.txRet with
    | host => exact f.host hr
    | rx => cases hrun.symm.trans (running_of_echo hw hr)

/-- Settles O32: the Receiver's frame, and the bytes `RX_CLEAR` and `RX_COPY` store. -/
theorem receiverFrame : Obligations.ReceiverFrame := by
  intro s t hrun hw hwf h
  rw [exec_of_running hrun] at h
  have f := microStep_rxFrame hw h
  refine ⟨fun hclear hcopy a => by rw [f.mem hclear hcopy], fun hclear a ha => ?clear,
    fun hcopy a ha => ?copy, f.params, f.bufBase, f.bufSize, f.timeout, f.config, f.ownId,
    f.bcastId, f.txId, f.lastOp, f.echoErr, f.tx, f.tec, f.bus, f.slotTypeOk, f.agenda, f.refrain,
    f.readData, f.bufData, f.draws, f.txBudget, f.txOff, f.chunkLen, f.chunk, f.errSnap, f.dp,
    f.slots, f.others, fun hb _ => f.result hb, f.cause⟩
  case clear =>
    simp only [microStep, hclear] at h
    exact rxClear_reads_outside hwf h ha
  case copy =>
    simp only [microStep, hcopy] at h
    exact rxCopy_reads_outside hwf h ha

end Sys2Proof.Machine

/-!
SUPPORT. What one turn of any agent does to the state, said once as `Moves` (10_state.md rule R36),
and the properties of every step that follow by its cases: the slots, the bus, the transmit slot,
the memory's canonical form, the mask and the parameters.
-/

namespace Sys2Proof.Machine

open Sys2Proof.Config Sys2Proof.Safety

/-! ## The moves of the agents -/

/-- `Moves s u t`: the turn `u`, taken in `s`, leaves `t`. A micro-step is the block's, or that of a
`CMD` write to a block whose flags say that it is idle. -/
inductive Moves (s : State) : Turn → State → Prop
  | wait (u : Turn) : Moves s u s
  | micro {u : Turn} {t : State} (hturn : u = .block ∨ s.busy = false)
      (h : microStep s = .next t) : Moves s u t
  | env {e : EnvStep} {t : State} (h : envStep s e = .next t) : Moves s (.env e) t
  | fault (x : HostStep) (c : FaultCause) (n : Nat) (hc : c ≠ .none) :
      Moves s (.host x) (raiseFault s c n)
  | startRead (x : HostStep) (hb : s.busy = false) (hf : s.fault = false) :
      Moves s (.host x) (startRead s)
  | startWrite (x : HostStep) (hb : s.busy = false) (hf : s.fault = false) :
      Moves s (.host x) (startWrite s)
  | store (x : HostStep) {offset : Nat} {data : Word} {t : State} (hb : s.busy = false)
      (hf : s.fault = false) (h : storeReg offset data s = some t) : Moves s (.host x) t
  | regRead (x : HostStep) (w : Word) : Moves s (.host x) { s with readData := w }
  | bufRead (x : HostStep) (b : Byte) : Moves s (.host x) { s with bufData := b }
  | bufWrite (x : HostStep) (a : Nat) (v : Byte) (hb : s.busy = false) (ha : a < spaceEnd s) :
      Moves s (.host x) { s with mem := s.mem.write a v }
  | periphReset (p : Peripheral) (hb : s.busy = false) (hlen : p.slots.length = s.params.nRx)
      (htec : p.tec < 2 ^ s.params.tecW) (hbus : p.bus ≠ .busOff) :
      Moves s (.host (.periphReset p)) { s with periph := p }
  | reset : Moves s .reset (blockReset s)

section
variable {s t : State}

/-- The start of each command (30_encoding.md rule R91). -/
def starts : Instr → State → State
  | .read => startRead
  | .write => startWrite

/-- A command that does not run is issued, whether the block is idle or the other command runs. -/
theorem exec_of_not_running {i : Instr} (h : running s ≠ some i) :
    exec i s = .next (issue s (starts i)) := by
  cases i
  case' read => simp only [exec, execRead]
  case' write => simp only [exec, execWrite]
  all_goals
    split
    · contradiction
    · rfl
    · rfl

/-- A `CMD` write to an idle block starts a command, or is one of its micro-steps where the flags
belie the state. -/
theorem exec_moves {i : Instr} (x : HostStep) (hb : s.busy = false) (hf : s.fault = false)
    (h : exec i s = .next t) : Moves s (.host x) t := by
  by_cases hrun : running s = some i
  · rw [exec_of_running hrun] at h
    exact .micro (.inr hb) h
  · rw [exec_of_not_running hrun, issue, hf, hb] at h
    cases h
    cases i with
    | read => exact .startRead x hb hf
    | write => exact .startWrite x hb hf

theorem hostWrite_moves {offset width : Nat} {data : Word} (x : HostStep)
    (h : hostWrite s offset width data = .next t) : Moves s (.host x) t := by
  obtain ⟨_, rfl⟩ | ⟨_, rfl⟩ | ⟨_, _, rfl⟩ | ⟨hf, hb, _, hcmd⟩ | ⟨hf, hb, hst⟩ |
    ⟨_, _, _, rfl⟩ := hostWrite_cases h
  · exact .fault x _ _ (by decide)
  · exact .wait _
  · exact .fault x _ _ (by decide)
  · obtain ⟨_, _, hexec⟩ | ⟨_, _, rfl⟩ := writeCmd_cases hcmd
    · exact exec_moves x hb hf hexec
    · exact .fault x _ _ (by decide)
  · exact .store x hb hf hst
  · exact .fault x _ _ (by decide)

theorem hostStep_moves {x : HostStep} (h : hostStep s x = .next t) : Moves s (.host x) t := by
  obtain ⟨_, _, _, _, _, _, hwrite⟩ | ⟨_, _, _, _, _, hread⟩ |
    ⟨hb, ⟨_, _, _, ha, rfl⟩ | ⟨_, _, _, rfl⟩ | ⟨p, rfl, hlen, htec, hbus, rfl⟩ |
      ⟨_, rfl⟩⟩ := hostStep_cases h
  · exact hostWrite_moves x hwrite
  · obtain ⟨_, rfl⟩ | ⟨_, rfl⟩ := hostRead_cases hread
    · exact .fault x _ _ (by decide)
    · exact .regRead x _
  · exact .bufWrite x _ _ hb ha
  · exact .bufRead x _
  · exact .periphReset p hb hlen htec hbus
  · exact .wait _

theorem takeTurn_moves {u : Turn} (h : takeTurn s u = .next t) : Moves s u t := by
  obtain ⟨rfl, hblock⟩ | ⟨_, rfl, henv⟩ | ⟨_, rfl, hhost⟩ | ⟨rfl, rfl⟩ := takeTurn_cases h
  · obtain ⟨_, rfl⟩ | ⟨_, hmicro⟩ := blockTurn_cases hblock
    · exact .wait _
    · exact .micro (.inl rfl) hmicro
  · exact .env henv
  · exact hostStep_moves hhost
  · exact .reset

/-- Every step is one move, of the next turn, in the state with that turn taken off. -/
theorem step_moves (h : step s = .next t) : ∃ u, nextTurn s = u ∧ Moves (popTurn s) u t :=
  ⟨_, rfl, takeTurn_moves (step_cases h).2⟩

/-! ## The parameters (00_scope.md rule R8) -/

theorem moves_params {u : Turn} (h : Moves s u t) : t.params = s.params := by
  cases h with
  | micro _ h => exact (microStep_frame h).params
  | env h =>
    obtain ⟨_, _, _, _, _, _, _, _, rfl⟩ | ⟨_, _, rfl⟩ | ⟨_, _, _, rfl⟩ | ⟨_, _, _, rfl⟩ |
      ⟨_, _, _, rfl⟩ := envStep_cases h
    all_goals rfl
  | store _ _ _ h =>
    obtain ⟨_, rfl⟩ | ⟨_, rfl⟩ | ⟨_, rfl⟩ | ⟨_, rfl⟩ | ⟨_, rfl⟩ | ⟨_, rfl⟩ | ⟨_, rfl⟩ :=
      storeReg_cases h
    all_goals rfl
  | wait | fault | startRead | startWrite | regRead | bufRead | bufWrite | periphReset | reset =>
    rfl

theorem step_of_not_ok (h : s.params.ok = false) : step s = .refused .parameters := by
  simp [step, systemStep, fits, h]

/-- Settles O48: no move changes a parameter, and `step` asks for `Params.ok` before any move. -/
theorem parametersAreFixedAndChecked : Obligations.ParametersAreFixedAndChecked := by
  refine ⟨fun s t h => ?fixed, fun s hbad => step_of_not_ok ?checked⟩
  case fixed =>
    obtain ⟨_, _, hmove⟩ := step_moves h
    exact moves_params (s := popTurn s) hmove
  case checked =>
    simp only [Params.ok, Params.slotsOk, Params.pollStepOk, Params.sizeWidthOk, Params.txSlotOk,
      Bool.and_eq_false_iff, decide_eq_false_iff_not]
    omega

/-! ## The memory's canonical form (20_memory.md rule R60) -/

theorem microStep_wf (hwf : s.mem.wf) (h : microStep s = .next t) : t.mem.wf := by
  cases hw : writeRuns s with
  | true => rw [(microStep_txFrame hw h).mem]; exact hwf
  | false =>
    by_cases hclear : s.fsm = .rxClear
    · simp only [microStep, hclear] at h
      obtain ⟨_, rfl⟩ := rxClear_cases h
      exact fill_wf _ _ _ _ hwf
    by_cases hcopy : s.fsm = .rxCopy
    · simp only [microStep, hcopy] at h
      obtain ⟨_, _, _, _, rfl⟩ := rxCopy_cases h
      exact copyDown_wf _ _ _ _ hwf
    · rw [(microStep_rxFrame hw h).mem hclear hcopy]
      exact hwf

theorem envStep_mem {e : EnvStep} (h : envStep s e = .next t) : t.mem = s.mem := by
  obtain ⟨_, _, _, _, _, _, _, _, rfl⟩ | ⟨_, _, rfl⟩ | ⟨_, _, _, rfl⟩ | ⟨_, _, _, rfl⟩ |
    ⟨_, _, _, rfl⟩ := envStep_cases h
  all_goals rfl

/-- A register write reaches neither memory nor peripheral nor any internal register. -/
theorem storeReg_frame {offset : Nat} {data : Word} (h : storeReg offset data s = some t) :
    t.mem = s.mem ∧ t.periph = s.periph ∧ t.calls = s.calls ∧ t.irqMask = s.irqMask ∧
      t.cursor = s.cursor ∧ t.dp = s.dp := by
  obtain ⟨_, rfl⟩ | ⟨_, rfl⟩ | ⟨_, rfl⟩ | ⟨_, rfl⟩ | ⟨_, rfl⟩ | ⟨_, rfl⟩ | ⟨_, rfl⟩ :=
    storeReg_cases h
  all_goals exact ⟨rfl, rfl, rfl, rfl, rfl, rfl⟩

/-- Settles O45: the clear, the copy and the host's write keep the form; no other move writes. -/
theorem everyStepKeepsMemoryCanonical : Obligations.EveryStepKeepsMemoryCanonical := by
  intro s t hwf h
  obtain ⟨_, _, hmove⟩ := step_moves h
  cases hmove with
  | micro _ h => exact microStep_wf (s := popTurn s) hwf h
  | env h => rw [envStep_mem h]; exact hwf
  | store _ _ _ h => rw [(storeReg_frame h).1]; exact hwf
  | bufWrite => exact write_wf _ _ _ hwf
  | wait | fault | startRead | startWrite | regRead | bufRead | periphReset | reset => exact hwf

/-! ## The receive slots (10_state.md rule R34, law E2) -/

/-- A release clears the full flag of its slot. -/
theorem rxRelease_slot {i : Nat} {slot : RxSlot} (h : s.periph.slots[i]? = some slot) :
    (rxRelease s i).periph.slots[i]? = some { slot with full := false } := by
  simp [rxRelease, logCall, h]

/-- Only the Receiver's two releases touch the slots, each the slot under the cursor. -/
theorem microStep_slots {i : Nat} {slot : RxSlot} (hslot : s.periph.slots[i]? = some slot)
    (h : microStep s = .next t) :
    t.periph.slots[i]? = some slot ∨
    (t.periph.slots[i]? = some { slot with full := false } ∧ i = s.cursor ∧
      (s.fsm = .rxFilter ∨ s.fsm = .rxRelease) ∧ t.calls.head? = some (.rxRelease i)) := by
  cases hw : writeRuns s with
  | true => rw [(microStep_txFrame hw h).slots]; exact .inl hslot
  | false =>
    have f := microStep_rxFrame hw h
    by_cases hi : i = s.cursor
    case neg => rw [f.others i hi]; exact .inl hslot
    subst hi
    by_cases hfilter : s.fsm = .rxFilter
    · simp only [microStep, hfilter] at h
      obtain ⟨_, _, ⟨_, rfl⟩ | ⟨_, _, rfl⟩ | ⟨_, _, _, rfl⟩ | ⟨_, _, _, rfl⟩⟩ := rxFilter_cases h
      · exact .inr ⟨rxRelease_slot (s := logCall s (.rxId s.cursor)) hslot, rfl, .inl hfilter, rfl⟩
      all_goals exact .inl hslot
    by_cases hrelease : s.fsm = .rxRelease
    · simp only [microStep, hrelease] at h
      obtain ⟨_, rfl⟩ := rxReleaseStep_cases h
      exact .inr ⟨rxRelease_slot hslot, rfl, .inr hrelease, rfl⟩
    · rw [f.slots hfilter hrelease]
      exact .inl hslot

/-- A frame arrives in an empty slot only, so a full one keeps its frame (laws E1 and E2). -/
theorem envStep_fullSlot {e : EnvStep} {i : Nat} {slot : RxSlot}
    (hslot : s.periph.slots[i]? = some slot) (hfull : slot.full = true)
    (h : envStep s e = .next t) : t.periph.slots[i]? = some slot := by
  obtain ⟨j, _, _, _, other, _, hother, hempty, rfl⟩ | ⟨_, _, rfl⟩ | ⟨_, _, _, rfl⟩ |
    ⟨_, _, _, rfl⟩ | ⟨_, _, _, rfl⟩ := envStep_cases h
  · have hne : j ≠ i := by
      rintro rfl
      obtain rfl : other = slot := Option.some.inj (hother.symm.trans hslot)
      exact absurd hfull (by simp [hempty])
    exact (List.getElem?_set_ne hne).trans hslot
  all_goals exact hslot

/-- Settles O37: of the moves, the two releases, an arrival and the host's reset of the peripheral
reach the slots. -/
theorem fullSlotIsStableUntilReleased : Obligations.FullSlotIsStableUntilReleased := by
  intro s t i slot hslot hfull h
  obtain ⟨u, hu, hmove⟩ := step_moves h
  cases hmove with
  | micro _ h => exact (microStep_slots (s := popTurn s) hslot h).imp_right .inl
  | env h => exact .inl (envStep_fullSlot (s := popTurn s) hslot hfull h)
  | store _ _ _ h => rw [(storeReg_frame h).2.1]; exact .inl hslot
  | periphReset p => exact .inr (.inr ⟨p, hu, rfl⟩)
  | wait | fault | startRead | startWrite | regRead | bufRead | bufWrite | reset =>
    exact .inl hslot

/-! ## The bus state (law E5) -/

/-- Settles O38: no micro-step moves the bus, law E5 holds the environment, and a host reset of the
peripheral leaves another state while `BUSY = 0`. -/
theorem busOffIsStickyUntilPeripheralReset : Obligations.BusOffIsStickyUntilPeripheralReset := by
  intro s t hbus h
  obtain ⟨u, hu, hmove⟩ := step_moves h
  cases hmove with
  | micro _ h => exact .inl ((microStep_frame h).bus.trans hbus)
  | env h =>
    obtain ⟨_, _, _, _, _, _, _, _, rfl⟩ | ⟨_, _, rfl⟩ | ⟨_, _, _, rfl⟩ | ⟨_, _, hlaw, rfl⟩ |
      ⟨_, _, _, rfl⟩ := envStep_cases h
    case inr.inr.inr.inl => exact .inl (hlaw hbus)
    all_goals exact .inl hbus
  | store _ _ _ h => rw [(storeReg_frame h).2.1]; exact .inl hbus
  | periphReset p hb _ _ hp => exact .inr ⟨p, hu, rfl, hp, hb⟩
  | wait | fault | startRead | startWrite | regRead | bufRead | bufWrite | reset => exact .inl hbus

/-! ## The transmit slot (law E3) -/

/-- Only `TX_TRIGGER` touches the transmit slot, and it leaves it busy. -/
theorem microStep_tx (h : microStep s = .next t) :
    t.periph.tx = s.periph.tx ∨ (s.fsm = .txTrigger ∧ t.periph.tx.busy = true) := by
  cases hw : writeRuns s with
  | true =>
    by_cases htrigger : s.fsm = .txTrigger
    · rw [microStep_of_txTrigger htrigger, txTrigger_eq] at h
      cases h
      exact .inr ⟨htrigger, rfl⟩
    · exact .inl ((microStep_txFrame hw h).tx htrigger)
  | false => exact .inl (microStep_rxFrame hw h).tx

/-- Settles O39: beside `TX_TRIGGER` only the environment's `txFree` and the host's reset of the
peripheral reach the transmit slot. -/
theorem onlyTheTriggerOccupiesTheSlot : Obligations.OnlyTheTriggerOccupiesTheSlot := by
  intro s t h hreset
  obtain ⟨u, hu, hmove⟩ := step_moves h
  rw [hu] at hreset ⊢
  have unchanged (ht : t.periph.tx = s.periph.tx) :
      (s.periph.tx.busy = false → t.periph.tx.busy = true → s.fsm = .txTrigger) ∧
      (s.periph.tx.busy = true → t.periph.tx.busy = false → u = .env .txFree) := by
    rw [ht]
    exact ⟨fun h0 h1 => absurd h1 (by simp [h0]), fun h1 h0 => absurd h1 (by simp [h0])⟩
  cases hmove with
  | micro _ h =>
    obtain ht | ⟨htrigger, hbusy⟩ := microStep_tx h
    · exact unchanged ht
    · exact ⟨fun _ _ => htrigger, fun _ h0 => absurd hbusy (by simp [h0])⟩
  | env h =>
    obtain ⟨_, _, _, _, _, _, _, _, rfl⟩ | ⟨rfl, _, rfl⟩ | ⟨_, _, _, rfl⟩ | ⟨_, _, _, rfl⟩ |
      ⟨_, _, _, rfl⟩ := envStep_cases h
    case inr.inl => exact ⟨fun _ h1 => (Bool.false_ne_true h1).elim, fun _ _ => rfl⟩
    all_goals exact unchanged rfl
  | store _ _ _ h => exact unchanged (congrArg Peripheral.tx (storeReg_frame h).2.1)
  | periphReset p => exact absurd rfl (hreset p)
  | wait | fault | startRead | startWrite | regRead | bufRead | bufWrite | reset =>
    exact unchanged rfl

/-! ## The mask around the send (40_transmit.md rule R126) -/

/-- Every send among the calls was made under the mask. -/
def sendsMasked (cs : List Call) : Prop :=
  ∀ id len data m, Call.txSend id len data m ∈ cs → m = true

/-- The mask is down and every send so far was masked. -/
def Masked (s : State) : Prop := s.irqMask = false ∧ sendsMasked s.calls

/-- From `s` to `t` no frame was sent, and the mask did not rise. -/
def NoSend (s t : State) : Prop :=
  (t.irqMask = s.irqMask ∨ t.irqMask = false) ∧
  ∃ ds, t.calls = ds ++ s.calls ∧ ∀ c ∈ ds, Call.sent c = none

theorem NoSend.masked (h : NoSend s t) (hs : Masked s) : Masked t := by
  obtain ⟨hmask, ds, hcalls, hnew⟩ := h
  obtain ⟨hdown, hsent⟩ := hs
  refine ⟨hmask.elim (·.trans hdown) id, fun id len data m hm => ?_⟩
  rw [hcalls] at hm
  obtain hm | hm := List.mem_append.1 hm
  · cases hnew _ hm
  · exact hsent id len data m hm

theorem noSend_of_no_call (hmask : t.irqMask = s.irqMask ∨ t.irqMask = false)
    (hcalls : t.calls = s.calls) : NoSend s t :=
  ⟨hmask, [], hcalls, by simp⟩

theorem noSend_of_calls (ds : List Call) (hmask : t.irqMask = s.irqMask)
    (hcalls : t.calls = ds ++ s.calls) (hnew : ∀ c ∈ ds, Call.sent c = none) : NoSend s t :=
  ⟨.inl hmask, ds, hcalls, hnew⟩

theorem laneCalls_sent (p : Params) (i len : Nat) :
    ∀ c ∈ laneCalls p i len, Call.sent c = none := by
  simp [laneCalls, Call.sent]

theorem txReturn_noSend (s : State) (ds : List Call) (r : Result) (n : Nat)
    (hnew : ∀ c ∈ ds, Call.sent c = none) :
    NoSend s (txReturn { s with calls := ds ++ s.calls } r n) := by
  cases hr : s.dp.txRet with
  | host =>
    rw [txReturn_host { s with calls := ds ++ s.calls } r n hr]
    exact noSend_of_calls ds rfl rfl hnew
  | rx =>
    rw [txReturn_rx { s with calls := ds ++ s.calls } r n hr]
    exact noSend_of_calls ds rfl rfl hnew

/-- A polling wait makes a `txFull` and at most a `Delay`. -/
theorem txWait_noSend (s : State) (f : Fsm) : NoSend s (goto (txWait (logCall s .txFull)) f) := by
  rw [txWait_eq]
  by_cases ht : s.dp.txTimeout = 0
  · exact noSend_of_calls [.txFull] rfl (if_pos ht) (by simp [Call.sent])
  · exact noSend_of_calls [.delay s.params.pollStep, .txFull] rfl (if_neg ht)
      (by simp [Call.sent])

/-- Of the micro-steps only `TX_TRIGGER` sends. -/
theorem microStep_noSend (htrigger : s.fsm ≠ .txTrigger) (h : microStep s = .next t) :
    NoSend s t := by
  unfold microStep at h
  cases hf : s.fsm <;> simp only [hf] at h
  case idle => cases h; exact noSend_of_no_call (.inl rfl) rfl
  case fault => cases h; exact noSend_of_no_call (.inl rfl) rfl
  case rxStart =>
    obtain ⟨_, rfl⟩ | ⟨_, _, rfl⟩ | ⟨_, _, rfl⟩ | ⟨_, _, rfl⟩ := rxStart_cases h
    · exact noSend_of_no_call (.inl rfl) rfl
    · exact noSend_of_no_call (.inr rfl) rfl
    · exact noSend_of_no_call (.inr rfl) rfl
    · exact noSend_of_no_call (.inl rfl) rfl
  case rxClear =>
    obtain ⟨_, rfl⟩ := rxClear_cases h
    exact noSend_of_no_call (.inl rfl) rfl
  case rxPassTop =>
    obtain ⟨_, rfl⟩ | ⟨_, _, rfl⟩ | ⟨_, _, rfl⟩ := rxPassTop_cases h
    all_goals exact noSend_of_no_call (.inl rfl) rfl
  case rxBus =>
    obtain ⟨_, rfl⟩ | ⟨_, _, rfl⟩ | ⟨_, _, rfl⟩ := rxBus_cases h
    · exact noSend_of_no_call (.inl rfl) rfl
    all_goals exact noSend_of_calls [.busState] rfl rfl (by simp [Call.sent])
  case rxTest =>
    obtain ⟨_, _, ⟨_, rfl⟩ | ⟨_, rfl⟩⟩ := rxTest_cases h
    all_goals exact noSend_of_calls [.rxFull s.cursor] rfl rfl (by simp [Call.sent])
  case rxFilter =>
    obtain ⟨_, _, ⟨_, rfl⟩ | ⟨_, _, rfl⟩ | ⟨_, _, _, rfl⟩ | ⟨_, _, _, rfl⟩⟩ := rxFilter_cases h
    · exact noSend_of_calls [.rxRelease s.cursor, .rxId s.cursor] rfl rfl (by simp [Call.sent])
    · exact ⟨.inr rfl, [.rxLen s.cursor, .rxId s.cursor], rfl, by simp [Call.sent]⟩
    · exact ⟨.inr rfl, [.rxLen s.cursor, .rxId s.cursor], rfl, by simp [Call.sent]⟩
    · exact noSend_of_calls [.rxLen s.cursor, .rxId s.cursor] rfl rfl (by simp [Call.sent])
  case rxCopy =>
    obtain ⟨_, _, _, _, rfl⟩ := rxCopy_cases h
    exact noSend_of_calls _ rfl rfl (laneCalls_sent _ _ _)
  case rxRelease =>
    obtain ⟨_, rfl⟩ := rxReleaseStep_cases h
    exact noSend_of_calls [.rxRelease s.cursor] rfl rfl (by simp [Call.sent])
  case rxEcho => cases h; exact noSend_of_no_call (.inl rfl) rfl
  case rxAdvance =>
    obtain ⟨_, rfl⟩ | ⟨_, rfl⟩ := rxAdvance_cases h
    · cases s.params.advanceOnComplete <;> exact noSend_of_no_call (.inl rfl) rfl
    · exact noSend_of_no_call (.inl rfl) rfl
  case rxPassEnd =>
    obtain ⟨_, rfl⟩ | ⟨_, rfl⟩ := rxPassEnd_cases h
    · exact noSend_of_calls [.delay s.params.pollStep] rfl rfl (by simp [Call.sent])
    · exact noSend_of_no_call (.inl rfl) rfl
  case rxFinal =>
    obtain ⟨_, rfl⟩ | ⟨_, rfl⟩ := rxFinal_cases h
    all_goals exact noSend_of_no_call (.inl rfl) rfl
  case txStart =>
    obtain ⟨_, rfl⟩ | ⟨_, _, rfl⟩ | ⟨_, _, _, rfl⟩ | ⟨_, _, _, rfl⟩ := txStart_cases h
    · exact noSend_of_no_call (.inr rfl) rfl
    · exact txReturn_noSend s [] _ _ (by simp)
    · exact noSend_of_no_call (.inr rfl) rfl
    · exact noSend_of_no_call (.inl rfl) rfl
  case txWaitFree =>
    obtain ⟨_, rfl⟩ | ⟨_, _, rfl⟩ | ⟨_, _, rfl⟩ := txWaitFree_cases h
    · exact txReturn_noSend s [] _ _ (by simp)
    · exact noSend_of_calls [.txFull] rfl rfl (by simp [Call.sent])
    · exact txWait_noSend s (txWait (logCall s .txFull)).fsm
  case txLoad =>
    obtain ⟨_, rfl⟩ := txLoad_cases h
    exact noSend_of_calls [.txErrCount] rfl rfl (by simp [Call.sent])
  case txTrigger => exact absurd hf htrigger
  case txPollErr =>
    obtain ⟨_, rfl⟩ | ⟨_, _, rfl⟩ | ⟨_, _, rfl⟩ := txPollErr_cases h
    · exact txReturn_noSend s [] _ _ (by simp)
    · exact txReturn_noSend s [.txErrCount] _ _ (by simp [Call.sent])
    · exact noSend_of_calls [.txErrCount] rfl rfl (by simp [Call.sent])
  case txPollFree =>
    obtain ⟨_, rfl⟩ | ⟨_, rfl⟩ := txPollFree_cases h
    · exact noSend_of_calls [.txFull] rfl rfl (by simp [Call.sent])
    · exact txWait_noSend s _
  case txFinal =>
    obtain ⟨_, rfl⟩ | ⟨_, rfl⟩ := txFinal_cases h
    all_goals exact txReturn_noSend s [.busState] _ _ (by simp [Call.sent])

/-- `TX_TRIGGER` sends under the mask and lowers it. -/
theorem txTrigger_masked (hs : Masked s) (h : txTrigger s = .next t) : Masked t := by
  rw [txTrigger_eq] at h
  cases h
  refine ⟨rfl, fun id len data m hm => ?_⟩
  obtain hnew | hold := List.mem_cons.1 hm
  · cases hnew
    rfl
  · exact hs.2 id len data m hold

/-- Settles O47: `TX_TRIGGER` sends under the mask, and no other move sends or raises it. -/
theorem sendIsAlwaysMasked : Obligations.SendIsAlwaysMasked := by
  intro s t hdown hsent h
  have hs : Masked (popTurn s) := ⟨hdown, hsent⟩
  obtain ⟨_, _, hmove⟩ := step_moves h
  show Masked t
  cases hmove with
  | micro _ h =>
    by_cases htrigger : (popTurn s).fsm = .txTrigger
    · rw [microStep_of_txTrigger htrigger] at h
      exact txTrigger_masked hs h
    · exact (microStep_noSend htrigger h).masked hs
  | env h =>
    obtain ⟨_, _, _, _, _, _, _, _, rfl⟩ | ⟨_, _, rfl⟩ | ⟨_, _, _, rfl⟩ | ⟨_, _, _, rfl⟩ |
      ⟨_, _, _, rfl⟩ := envStep_cases h
    all_goals exact hs
  | store _ _ _ h =>
    obtain ⟨_, _, hcalls, hmask, _⟩ := storeReg_frame h
    exact (noSend_of_no_call (.inl hmask) hcalls).masked hs
  | fault | reset => exact ⟨rfl, hsent⟩
  | wait | startRead | startWrite | regRead | bufRead | bufWrite | periphReset => exact hs

end

end Sys2Proof.Machine

/-!
SUPPORT. The invariant of the machine. `Consistent` is taken apart into what does not depend on the
state of the block's machine (`Sound`), the flags of a running command (`Engaged`) and the condition
of each state (`phaseOk`), and every move keeps it; so no run ever faults.
-/

namespace Sys2Proof.Machine

open Sys2Proof.Config Sys2Proof.Safety

/-! ## The parts of the invariant -/

/-- The internal registers fit (10_state.md rule R27). -/
structure DpFits (p : Params) (d : Datapath) : Prop where
  count : d.count < 2 ^ p.sizeW
  produced : d.produced < 2 ^ cursorWidth p
  txBase : d.txBase < 2 ^ p.addrW
  txSize : d.txSize < 2 ^ p.sizeW
  txTimeout : d.txTimeout < 2 ^ p.timeoutW
  txOff : d.txOff < 2 ^ p.sizeW
  errSnap : d.errSnap < 2 ^ p.tecW
  rxBudget : budgetOk p d.rxBudget
  txBudget : budgetOk p d.txBudget

/-- The part of the invariant that speaks neither of `STATE` nor of the status flags. -/
structure Sound (s : State) : Prop where
  fits : fits s = true
  bufBase : s.bufBase < 2 ^ s.params.addrW
  bufSize : s.bufSize < 2 ^ s.params.sizeW
  timeout : s.timeout < 2 ^ s.params.timeoutW
  countReg : s.countReg < 2 ^ s.params.sizeW
  tec : s.periph.tec < 2 ^ s.params.tecW
  dp : DpFits s.params s.dp
  irqMask : s.irqMask = false
  cursor : s.cursor ≤ s.params.nRx
  mem : memoryOk s

/-- The status flags while the command `i` runs. -/
structure Engaged (i : Instr) (s : State) : Prop where
  busy : s.busy = true
  fault : s.fault = false
  faultCause : s.faultCause = .none
  faultInfo : s.faultInfo = 0
  result : s.result = .none
  lastOp : s.lastOp = some i

section
variable {s t : State} {i : Instr}

theorem sound_of_consistent (h : Consistent s) : Sound s := by
  obtain ⟨hfits, ⟨h1, h2, h3, h4, h5, h6, h7, h8, h9, h10, h11, h12⟩, hrx, htx,
    ⟨_, _, _, _, _, _, hmask, hcursor⟩, _, hmem⟩ := h
  exact ⟨hfits, h1, h2, h3, h4, h5, ⟨h6, h7, h8, h9, h10, h11, h12, hrx, htx⟩, hmask, hcursor, hmem⟩

theorem phase_of_consistent (h : Consistent s) : phaseOk s = true := by
  obtain ⟨_, _, _, _, _, hphase, _⟩ := h
  exact hphase

theorem control_of_consistent (h : Consistent s) : controlOk s := by
  obtain ⟨_, _, _, _, hcontrol, _⟩ := h
  exact hcontrol

/-- The parts make the invariant. -/
theorem consistent_of_parts (hs : Sound s) (hcontrol : controlOk s) (hphase : phaseOk s = true) :
    Consistent s := by
  obtain ⟨hfits, h1, h2, h3, h4, h5, ⟨h6, h7, h8, h9, h10, h11, h12, hrx, htx⟩, _, _, hmem⟩ := hs
  exact ⟨hfits, ⟨h1, h2, h3, h4, h5, h6, h7, h8, h9, h10, h11, h12⟩, hrx, htx, hcontrol, hphase,
    hmem⟩

theorem running_ne_idle (h : running s = some i) : s.fsm ≠ .idle ∧ s.fsm ≠ .fault := by
  constructor
  all_goals
    intro hf
    simp [running, hf] at h

/-- While a command runs the flags are those of a running command. -/
theorem engaged_of_consistent (h : Consistent s) (hrun : running s = some i) : Engaged i s := by
  obtain ⟨hbusy, hfault, hcause, hinfo, hresult, hop, _, _⟩ := control_of_consistent h
  have hb : s.busy = true := hbusy.2 (running_ne_idle hrun)
  have hf : s.fault = false :=
    Bool.eq_false_iff.2 fun h => (running_ne_idle hrun).2 (hfault.1 h)
  exact ⟨hb, hf, not_not.1 fun hne => absurd (hcause.2 hne) (by simp [hf]), hinfo hf, hresult hb,
    (hop hb).trans hrun⟩

/-- A running command's state is consistent if its parts are. -/
theorem consistent_of_running (hs : Sound s) (he : Engaged i s) (hrun : running s = some i)
    (hphase : phaseOk s = true) : Consistent s := by
  refine consistent_of_parts hs ⟨?_, ?_, ?_, fun _ => he.faultInfo, fun _ => he.result,
    fun _ => he.lastOp.trans hrun.symm, hs.irqMask, hs.cursor⟩ hphase
  · simpa [he.busy] using running_ne_idle hrun
  · simpa [he.fault] using (running_ne_idle hrun).2
  · simp [he.fault, he.faultCause]

theorem cause_ne_none_of_faulted (h : Consistent s) (hf : s.fault = true) :
    s.faultCause ≠ .none := by
  obtain ⟨_, _, hcause, _⟩ := control_of_consistent h
  exact hcause.1 hf

/-! ## The invariant under the named operations -/

theorem sound_goto (h : Sound s) (f : Fsm) : Sound (goto s f) := { h with }

theorem sound_logCall (h : Sound s) (c : Call) : Sound (logCall s c) := { h with }

theorem sound_setDp {d : Datapath} (h : Sound s) (hd : DpFits s.params d) : Sound (setDp s d) :=
  { h with dp := hd }

theorem sound_setCursor {v : Nat} (h : Sound s) (hv : v ≤ s.params.nRx) :
    Sound (setCursor s v) := by
  rw [setCursor_of_le hv]
  exact { h with cursor := hv }

theorem sound_rxRelease (h : Sound s) (n : Nat) : Sound (rxRelease s n) :=
  { h with fits := by simpa [fits, rxRelease, logCall] using h.fits }

theorem sound_finish (h : Sound s) (r : Result) (n : Nat) : Sound (finish s r n) :=
  { h with countReg := cut_lt _ _ }

/-- The end of a command leaves an idle block (10_state.md rule R37). -/
theorem consistent_finish (hs : Sound s) (he : Engaged i s) (r : Result) (n : Nat) :
    Consistent (finish s r n) :=
  consistent_of_parts (sound_finish hs r n)
    ⟨by simp, by simp [he.fault], by simp [he.fault, he.faultCause], fun _ => he.faultInfo,
      by simp, by simp, hs.irqMask, hs.cursor⟩ rfl

/-- A fault leaves the block stopped, its first cause kept (60_exceptions.md rule R206). -/
theorem consistent_raiseFault (hs : Sound s) (hkept : s.fault = true → s.faultCause ≠ .none)
    {c : FaultCause} (hc : c ≠ .none) (n : Nat) : Consistent (raiseFault s c n) := by
  refine consistent_of_parts { hs with irqMask := rfl }
    ⟨by simp, by simp, ?_, by simp, by simp, by simp, rfl, hs.cursor⟩ rfl
  cases hf : s.fault
  · simp [hf, hc]
  · simp [hf, hkept hf]

/-- A fault of a running command is its first. -/
theorem consistent_fault_of_engaged (hs : Sound s) (he : Engaged i s) {c : FaultCause}
    (hc : c ≠ .none) (n : Nat) : Consistent (raiseFault s c n) :=
  consistent_raiseFault hs (fun hf => absurd hf (by simp [he.fault])) hc n

end

section
variable {s t : State} {i : Instr}

/-! ## What holds in each state of the block's machine (10_state.md rule R35) -/

theorem phaseOk_rxClear (h : s.fsm = .rxClear) :
    phaseOk s = true ↔ readReady s ∧ s.dp.count = 0 ∧ s.dp.produced = 0 := by
  rw [phaseOk, h]
  exact decide_eq_true_iff

theorem phaseOk_rxPassTop (h : s.fsm = .rxPassTop) :
    phaseOk s = true ↔ readReady s ∧ s.dp.produced ≤ s.cursor := by
  rw [phaseOk, h]
  exact decide_eq_true_iff

theorem phaseOk_rxBus (h : s.fsm = .rxBus) :
    phaseOk s = true ↔ readReady s ∧ 0 ≤ s.dp.rxBudget ∧ s.dp.produced ≤ s.cursor := by
  rw [phaseOk, h]
  exact decide_eq_true_iff

theorem phaseOk_rxTest (h : s.fsm = .rxTest) :
    phaseOk s = true ↔ readReady s ∧ 0 ≤ s.dp.rxBudget ∧ s.dp.produced ≤ s.cursor ∧
      s.cursor < s.params.nRx := by
  rw [phaseOk, h]
  exact decide_eq_true_iff

theorem phaseOk_rxFilter (h : s.fsm = .rxFilter) :
    phaseOk s = true ↔ readReady s ∧ 0 ≤ s.dp.rxBudget ∧ s.dp.produced ≤ s.cursor ∧
      s.cursor < s.params.nRx ∧ slotHeld s := by
  rw [phaseOk, h]
  exact decide_eq_true_iff

theorem phaseOk_rxCopy (h : s.fsm = .rxCopy) :
    phaseOk s = true ↔ frameTaken s ∧ slotHeld s := by
  rw [phaseOk, h]
  exact decide_eq_true_iff

theorem phaseOk_rxRelease (h : s.fsm = .rxRelease) :
    phaseOk s = true ↔ frameTaken s ∧ slotHeld s := by
  rw [phaseOk, h]
  exact decide_eq_true_iff

theorem phaseOk_rxEcho (h : s.fsm = .rxEcho) :
    phaseOk s = true ↔ frameTaken s := by
  rw [phaseOk, h]
  exact decide_eq_true_iff

theorem phaseOk_rxAdvance (h : s.fsm = .rxAdvance) :
    phaseOk s = true ↔ frameTaken s := by
  rw [phaseOk, h]
  exact decide_eq_true_iff

theorem phaseOk_rxPassEnd (h : s.fsm = .rxPassEnd) :
    phaseOk s = true ↔ readReady s ∧ 0 ≤ s.dp.rxBudget ∧ s.dp.produced ≤ s.cursor ∧
      s.cursor = s.params.nRx := by
  rw [phaseOk, h]
  exact decide_eq_true_iff

theorem phaseOk_rxFinal (h : s.fsm = .rxFinal) :
    phaseOk s = true ↔ readReady s := by
  rw [phaseOk, h]
  exact decide_eq_true_iff

theorem phaseOk_txStart (h : s.fsm = .txStart) :
    phaseOk s = true ↔ callerOk s := by
  rw [phaseOk, h]
  exact decide_eq_true_iff

theorem phaseOk_txWaitFree (h : s.fsm = .txWaitFree) :
    phaseOk s = true ↔ writeReady s ∧ s.dp.txOff = 0 := by
  rw [phaseOk, h]
  exact decide_eq_true_iff

theorem phaseOk_txLoad (h : s.fsm = .txLoad) :
    phaseOk s = true ↔ writeReady s ∧ s.dp.txOff < s.dp.txSize ∧ s.periph.tx.busy = false := by
  rw [phaseOk, h]
  exact decide_eq_true_iff

theorem phaseOk_txTrigger (h : s.fsm = .txTrigger) :
    phaseOk s = true ↔ chunkReady s ∧ s.periph.tx.busy = false := by
  rw [phaseOk, h]
  exact decide_eq_true_iff

theorem phaseOk_txPollErr (h : s.fsm = .txPollErr) :
    phaseOk s = true ↔ chunkReady s := by
  rw [phaseOk, h]
  exact decide_eq_true_iff

theorem phaseOk_txPollFree (h : s.fsm = .txPollFree) :
    phaseOk s = true ↔ chunkReady s ∧ 0 ≤ s.dp.txBudget := by
  rw [phaseOk, h]
  exact decide_eq_true_iff

theorem phaseOk_txFinal (h : s.fsm = .txFinal) :
    phaseOk s = true ↔ writeReady s ∧ s.dp.txOff = s.dp.txSize := by
  rw [phaseOk, h]
  exact decide_eq_true_iff

/-! ## The operands and the slot under the cursor -/

/-- A slot the cursor can name exists (10_state.md rule R30). -/
theorem slot_of_lt (hfits : fits s = true) (hc : s.cursor < s.params.nRx) :
    ∃ slot, slotAt s s.cursor = some slot := by
  have hlen : s.periph.slots.length = s.params.nRx := by
    simp only [fits, Bool.and_eq_true, beq_iff_eq] at hfits
    exact hfits.2
  exact ⟨_, List.getElem?_eq_getElem (hlen ▸ hc)⟩

theorem slotHeld_of_full {slot : RxSlot} (h : slotAt s s.cursor = some slot)
    (hfull : slot.full = true) : slotHeld s := by
  rw [slotHeld, h]
  exact hfull

theorem one_le_pollStep (hfits : fits s = true) : 1 ≤ s.params.pollStep := by
  simp only [fits, Params.ok, Params.pollStepOk, Bool.and_eq_true, decide_eq_true_eq] at hfits
  obtain ⟨⟨⟨⟨_, hpoll⟩, _⟩, _⟩, _⟩ := hfits
  exact hpoll

theorem budgetOk_initialBudget {p : Params} {n : Nat} (hn : n < 2 ^ p.timeoutW) :
    budgetOk p (initialBudget n) := by
  simp only [budgetOk, initialBudget, budgetScale]
  omega

/-- A budget that is not negative yet stays in its range for one more wait (42_datapath.md rule
R180). -/
theorem budgetOk_spend {p : Params} {b : Int} (h0 : 0 ≤ b) (h : budgetOk p b) :
    budgetOk p (spend p b) := by
  simp only [budgetOk, spend] at *
  omega

/-! ## The Receiver's micro-steps -/

theorem rxStart_consistent (hs : Consistent s) (hf : s.fsm = .rxStart)
    (h : rxStart s = .next t) : Consistent t := by
  have sound := sound_of_consistent hs
  have engaged : Engaged .read s := engaged_of_consistent hs (by simp [running, hf])
  obtain ⟨_, rfl⟩ | ⟨_, _, rfl⟩ | ⟨_, _, rfl⟩ | ⟨hmin, hin, rfl⟩ := rxStart_cases h
  · exact consistent_finish sound engaged _ _
  · exact consistent_fault_of_engaged sound engaged (by decide) _
  · exact consistent_fault_of_engaged sound engaged (by decide) _
  · have hd : DpFits s.params
        { s.dp with count := 0, produced := 0, rxBudget := initialBudget s.timeout } :=
      { sound.dp with
        count := Nat.two_pow_pos _, produced := Nat.two_pow_pos _
        rxBudget := budgetOk_initialBudget sound.timeout }
    exact consistent_of_running (sound_goto (sound_setDp sound hd) _) { engaged with } rfl
      ((phaseOk_rxClear rfl).2 ⟨⟨hmin, hin, Nat.zero_le _⟩, rfl, rfl⟩)

theorem rxClear_consistent (hs : Consistent s) (hf : s.fsm = .rxClear)
    (h : rxClear s = .next t) : Consistent t := by
  have sound := sound_of_consistent hs
  have engaged : Engaged .read s := engaged_of_consistent hs (by simp [running, hf])
  obtain ⟨hready, _, hprod⟩ := (phaseOk_rxClear hf).1 (phase_of_consistent hs)
  obtain ⟨_, rfl⟩ := rxClear_cases h
  obtain ⟨hwf, hbound⟩ := sound.mem
  have ⟨_, hin, _⟩ := hready
  have hmem := And.intro (fill_wf s.mem s.bufBase 0x00 s.bufSize hwf)
    (fill_bound s.mem s.bufBase 0x00 s.bufSize (spaceEnd s) (.inl hin) hbound)
  exact consistent_of_running { sound with mem := hmem } { engaged with } rfl
    ((phaseOk_rxPassTop rfl).2 ⟨hready, hprod.trans_le (Nat.zero_le _)⟩)

theorem rxPassTop_consistent (hs : Consistent s) (hf : s.fsm = .rxPassTop)
    (h : rxPassTop s = .next t) : Consistent t := by
  have sound := sound_of_consistent hs
  have engaged : Engaged .read s := engaged_of_consistent hs (by simp [running, hf])
  obtain ⟨hready, hprod⟩ := (phaseOk_rxPassTop hf).1 (phase_of_consistent hs)
  obtain ⟨_, rfl⟩ | ⟨hbudget, _, rfl⟩ | ⟨hbudget, _, rfl⟩ := rxPassTop_cases h
  · exact consistent_of_running (sound_goto sound _) { engaged with } rfl
      ((phaseOk_rxFinal rfl).2 hready)
  · have hd : DpFits s.params { s.dp with produced := 0 } :=
      { sound.dp with produced := Nat.two_pow_pos _ }
    exact consistent_of_running
      (sound_goto (sound_setDp (sound_setCursor sound (Nat.zero_le _)) hd) _) { engaged with } rfl
      ((phaseOk_rxBus rfl).2 ⟨hready, hbudget, Nat.zero_le _⟩)
  · exact consistent_of_running (sound_goto sound _) { engaged with } rfl
      ((phaseOk_rxBus rfl).2 ⟨hready, hbudget, hprod⟩)

theorem rxBus_consistent (hs : Consistent s) (hf : s.fsm = .rxBus)
    (h : rxBus s = .next t) : Consistent t := by
  have sound := sound_of_consistent hs
  have engaged : Engaged .read s := engaged_of_consistent hs (by simp [running, hf])
  obtain ⟨hready, hbudget, hprod⟩ := (phaseOk_rxBus hf).1 (phase_of_consistent hs)
  obtain ⟨hc, rfl⟩ | ⟨_, _, rfl⟩ | ⟨hc, _, rfl⟩ := rxBus_cases h
  · exact consistent_of_running (sound_goto sound _) { engaged with } rfl
      ((phaseOk_rxPassEnd rfl).2 ⟨hready, hbudget, hprod, Nat.le_antisymm sound.cursor hc⟩)
  · exact consistent_finish (sound_logCall sound _) { engaged with } _ _
  · exact consistent_of_running (sound_goto (sound_logCall sound _) _) { engaged with } rfl
      ((phaseOk_rxTest rfl).2 ⟨hready, hbudget, hprod, hc⟩)

/-- The scan goes on behind the slot it examined. -/
theorem consistent_next_slot (sound : Sound s) (engaged : Engaged .read s) (hready : readReady s)
    (hbudget : 0 ≤ s.dp.rxBudget) (hc : s.cursor < s.params.nRx)
    (hprod : s.dp.produced ≤ s.cursor + 1) :
    Consistent (goto (setCursor s (s.cursor + 1)) .rxBus) := by
  refine consistent_of_running (sound_goto (sound_setCursor sound hc) _) { engaged with } rfl
    ((phaseOk_rxBus rfl).2 ⟨hready, hbudget, ?_⟩)
  rw [setCursor_of_le hc]
  exact hprod

theorem rxTest_consistent (hs : Consistent s) (hf : s.fsm = .rxTest)
    (h : rxTest s = .next t) : Consistent t := by
  have sound := sound_of_consistent hs
  have engaged : Engaged .read s := engaged_of_consistent hs (by simp [running, hf])
  obtain ⟨hready, hbudget, hprod, hc⟩ := (phaseOk_rxTest hf).1 (phase_of_consistent hs)
  obtain ⟨_, hslot, ⟨hfull, rfl⟩ | ⟨_, rfl⟩⟩ := rxTest_cases h
  · exact consistent_of_running (sound_goto (sound_logCall sound _) _) { engaged with } rfl
      ((phaseOk_rxFilter rfl).2 ⟨hready, hbudget, hprod, hc, slotHeld_of_full hslot hfull⟩)
  · exact consistent_next_slot (sound_logCall sound _) { engaged with } hready hbudget hc
      (Nat.le_succ_of_le hprod)

theorem rxFilter_consistent (hs : Consistent s) (hf : s.fsm = .rxFilter)
    (h : rxFilter s = .next t) : Consistent t := by
  have sound := sound_of_consistent hs
  have engaged : Engaged .read s := engaged_of_consistent hs (by simp [running, hf])
  obtain ⟨hready, hbudget, hprod, hc, hheld⟩ := (phaseOk_rxFilter hf).1 (phase_of_consistent hs)
  obtain ⟨slot, _, hcase⟩ := rxFilter_cases h
  have hd : DpFits s.params { s.dp with produced := s.dp.produced + 1, len := slot.len } :=
    { sound.dp with produced := lt_cursorWidth _ (show s.dp.produced + 1 ≤ s.params.nRx by omega) }
  have haccepted : Sound (acceptedFrame s slot.len) := by
    rw [acceptedFrame_of_lt hc hprod]
    exact { sound with dp := hd }
  obtain ⟨_, rfl⟩ | ⟨_, _, rfl⟩ | ⟨_, _, _, rfl⟩ | ⟨_, hlen, hroom, rfl⟩ := hcase
  · exact consistent_next_slot (s := rxRelease (logCall s (.rxId s.cursor)) s.cursor)
      (sound_rxRelease (sound_logCall sound _) _) { engaged with } hready hbudget hc
      (Nat.le_succ_of_le hprod)
  · exact consistent_fault_of_engaged haccepted (i := .read) { engaged with } (by decide) _
  · exact consistent_fault_of_engaged haccepted (i := .read) { engaged with } (by decide) _
  · refine consistent_of_running (i := .read) (sound_goto haccepted _) { engaged with } rfl
      ((phaseOk_rxCopy rfl).2 ?_)
    rw [acceptedFrame_of_lt hc hprod]
    exact ⟨⟨hready, hbudget, hc, Nat.succ_le_succ hprod, hlen, hroom⟩, hheld⟩

/-- The bytes of a frame taken lie in the buffer memory (20_memory.md rule R63). -/
theorem frame_in_space (h : frameTaken s) :
    bufAddr s s.dp.count + s.dp.len.toNat ≤ spaceEnd s := by
  obtain ⟨⟨_, hin, _⟩, _, _, _, _, hroom⟩ := h
  rw [bufAddr]
  omega

theorem rxCopy_consistent (hs : Consistent s) (hf : s.fsm = .rxCopy)
    (h : rxCopy s = .next t) : Consistent t := by
  have sound := sound_of_consistent hs
  have engaged : Engaged .read s := engaged_of_consistent hs (by simp [running, hf])
  obtain ⟨htaken, hheld⟩ := (phaseOk_rxCopy hf).1 (phase_of_consistent hs)
  obtain ⟨slot, _, _, _, rfl⟩ := rxCopy_cases h
  obtain ⟨hwf, hbound⟩ := sound.mem
  have hmem := And.intro
    (copyDown_wf (payloadByte s.params slot.lanes s.dp.len.toNat) s.mem (bufAddr s s.dp.count)
      s.dp.len.toNat hwf)
    (copyDown_bound (payloadByte s.params slot.lanes s.dp.len.toNat) s.mem
      (bufAddr s s.dp.count) s.dp.len.toNat (spaceEnd s) (.inl (frame_in_space htaken)) hbound)
  exact consistent_of_running { sound with mem := hmem } { engaged with } rfl
    ((phaseOk_rxRelease rfl).2 ⟨htaken, hheld⟩)

theorem rxReleaseStep_consistent (hs : Consistent s) (hf : s.fsm = .rxRelease)
    (h : rxReleaseStep s = .next t) : Consistent t := by
  have sound := sound_of_consistent hs
  have engaged : Engaged .read s := engaged_of_consistent hs (by simp [running, hf])
  obtain ⟨htaken, _⟩ := (phaseOk_rxRelease hf).1 (phase_of_consistent hs)
  obtain ⟨_, rfl⟩ := rxReleaseStep_cases h
  have released := sound_rxRelease sound s.cursor
  cases echoEn s
  · exact consistent_of_running (sound_goto released _) { engaged with } rfl
      ((phaseOk_rxAdvance rfl).2 htaken)
  · exact consistent_of_running (sound_goto released _) { engaged with } rfl
      ((phaseOk_rxEcho rfl).2 htaken)

theorem rxEcho_consistent (hs : Consistent s) (hf : s.fsm = .rxEcho)
    (h : rxEcho s = .next t) : Consistent t := by
  have sound := sound_of_consistent hs
  have engaged : Engaged .read s := engaged_of_consistent hs (by simp [running, hf])
  have htaken := (phaseOk_rxEcho hf).1 (phase_of_consistent hs)
  cases h
  have hd : DpFits s.params
      { s.dp with
        txBase := cut s.params.addrW (bufAddr s s.dp.count)
        txSize := cut s.params.sizeW s.dp.len.toNat
        txTimeout := 0
        txRet := .rx } :=
    { sound.dp with
      txBase := cut_lt _ _, txSize := cut_lt _ _, txTimeout := Nat.two_pow_pos _ }
  have hsize : cut s.params.sizeW s.dp.len.toNat = s.dp.len.toNat := by
    obtain ⟨_, _, _, _, _, hroom⟩ := htaken
    have := sound.bufSize
    exact cut_of_lt (by omega)
  exact consistent_of_running (i := .read) (sound_goto (sound_setDp sound hd) _) { engaged with }
    rfl ((phaseOk_txStart rfl).2 ⟨(fun hr => nomatch hr), fun _ => ⟨htaken, rfl, hsize, rfl⟩⟩)

theorem rxAdvance_consistent (hs : Consistent s) (hf : s.fsm = .rxAdvance)
    (h : rxAdvance s = .next t) : Consistent t := by
  have sound := sound_of_consistent hs
  have engaged : Engaged .read s := engaged_of_consistent hs (by simp [running, hf])
  obtain ⟨⟨hmin, hin, _⟩, hbudget, hc, hprod, _, hroom⟩ :=
    (phaseOk_rxAdvance hf).1 (phase_of_consistent hs)
  have hcut : cut s.params.sizeW (s.dp.count + s.dp.len.toNat) = s.dp.count + s.dp.len.toNat :=
    cut_of_lt (hroom.trans_lt sound.bufSize)
  have hcases := rxAdvance_cases h
  rw [hcut] at hcases
  have hd : DpFits s.params { s.dp with count := s.dp.count + s.dp.len.toNat } :=
    { sound.dp with count := hroom.trans_lt sound.bufSize }
  have counted := sound_setDp sound hd
  obtain ⟨_, rfl⟩ | ⟨_, rfl⟩ := hcases
  · cases s.params.advanceOnComplete
    · exact consistent_finish counted (i := .read) { engaged with } _ _
    · exact consistent_finish (sound_setCursor counted hc) (i := .read) { engaged with } _ _
  · exact consistent_next_slot counted { engaged with } ⟨hmin, hin, hroom⟩ hbudget hc hprod

theorem rxPassEnd_consistent (hs : Consistent s) (hf : s.fsm = .rxPassEnd)
    (h : rxPassEnd s = .next t) : Consistent t := by
  have sound := sound_of_consistent hs
  have engaged : Engaged .read s := engaged_of_consistent hs (by simp [running, hf])
  obtain ⟨hready, hbudget, hprod, _⟩ := (phaseOk_rxPassEnd hf).1 (phase_of_consistent hs)
  obtain ⟨_, rfl⟩ | ⟨_, rfl⟩ := rxPassEnd_cases h
  · have hd : DpFits s.params { s.dp with rxBudget := spend s.params s.dp.rxBudget } :=
      { sound.dp with rxBudget := budgetOk_spend hbudget sound.dp.rxBudget }
    exact consistent_of_running (i := .read)
      (sound_goto (sound_setDp (sound_logCall sound (.delay s.params.pollStep)) hd) _)
      { engaged with } rfl ((phaseOk_rxPassTop rfl).2 ⟨hready, hprod⟩)
  · exact consistent_of_running (sound_goto sound _) { engaged with } rfl
      ((phaseOk_rxPassTop rfl).2 ⟨hready, hprod⟩)

theorem rxFinal_consistent (hs : Consistent s) (hf : s.fsm = .rxFinal)
    (h : rxFinal s = .next t) : Consistent t := by
  have engaged : Engaged .read s := engaged_of_consistent hs (by simp [running, hf])
  obtain ⟨_, rfl⟩ | ⟨_, rfl⟩ := rxFinal_cases h
  all_goals exact consistent_finish (sound_of_consistent hs) engaged _ _

/-! ## The Transmitter's micro-steps -/

/-- The command that runs is the same as long as its WRITE runs. -/
theorem running_of_same_caller (hrun : running s = some i) (hws : writeRuns s = true)
    (hwt : writeRuns t = true) (hret : t.dp.txRet = s.dp.txRet) : running t = some i := by
  cases hr : s.dp.txRet with
  | host => rw [running_of_host hwt (hret.trans hr), ← hrun, running_of_host hws hr]
  | rx => rw [running_of_echo hwt (hret.trans hr), ← hrun, running_of_echo hws hr]

/-- The return of a WRITE goes on with the READ it echoes for, or ends the command (40_transmit.md
rule R133). -/
theorem consistent_txReturn (sound : Sound s) (engaged : Engaged i s) (hrun : running s = some i)
    (hw : writeRuns s = true) (hcaller : callerOk s) (r : Result) (n : Nat) :
    Consistent (txReturn s r n) := by
  obtain ⟨_, hecho⟩ := hcaller
  cases hr : s.dp.txRet with
  | host => rw [txReturn_host s r n hr]; exact consistent_finish sound engaged r n
  | rx =>
    rw [txReturn_rx s r n hr]
    obtain ⟨htaken, _⟩ := hecho hr
    obtain rfl : i = .read := Option.some.inj (hrun.symm.trans (running_of_echo hw hr))
    exact consistent_of_running (i := .read) { sound with } { engaged with } rfl
      ((phaseOk_rxAdvance rfl).2 htaken)

theorem txStart_consistent (hs : Consistent s) (hf : s.fsm = .txStart)
    (hrun : running s = some i) (h : txStart s = .next t) : Consistent t := by
  have sound := sound_of_consistent hs
  have engaged := engaged_of_consistent hs hrun
  have hw : writeRuns s = true := by simp [writeRuns, hf]
  have hcaller := (phaseOk_txStart hf).1 (phase_of_consistent hs)
  obtain ⟨_, rfl⟩ | ⟨_, _, rfl⟩ | ⟨_, _, _, rfl⟩ | ⟨_, hsize, hin, rfl⟩ := txStart_cases h
  · exact consistent_fault_of_engaged sound engaged (by decide) _
  · exact consistent_txReturn sound engaged hrun hw hcaller _ _
  · exact consistent_fault_of_engaged sound engaged (by decide) _
  · have hd : DpFits s.params
        { s.dp with txBudget := initialBudget s.dp.txTimeout, txOff := 0 } :=
      { sound.dp with
        txOff := Nat.two_pow_pos _, txBudget := budgetOk_initialBudget sound.dp.txTimeout }
    exact consistent_of_running (sound_goto (sound_setDp sound hd) _) { engaged with }
      (running_of_same_caller hrun hw rfl rfl)
      ((phaseOk_txWaitFree rfl).2 ⟨⟨hcaller, hsize, hin⟩, rfl⟩)

/-- A polling wait keeps the registers' ranges while the budget is not negative. -/
theorem sound_txWait (sound : Sound s) (hbudget : 0 ≤ s.dp.txBudget) : Sound (txWait s) := by
  rw [txWait_eq]
  exact { sound with dp := { sound.dp with txBudget := budgetOk_spend hbudget sound.dp.txBudget } }

theorem txWaitFree_consistent (hs : Consistent s) (hf : s.fsm = .txWaitFree)
    (hrun : running s = some i) (h : txWaitFree s = .next t) : Consistent t := by
  have sound := sound_of_consistent hs
  have engaged := engaged_of_consistent hs hrun
  have hw : writeRuns s = true := by simp [writeRuns, hf]
  obtain ⟨hready, hoff⟩ := (phaseOk_txWaitFree hf).1 (phase_of_consistent hs)
  have ⟨hcaller, hsize, _⟩ := hready
  obtain ⟨_, rfl⟩ | ⟨_, hfree, rfl⟩ | ⟨hbudget, _, rfl⟩ := txWaitFree_cases h
  · exact consistent_txReturn sound engaged hrun hw hcaller _ _
  · exact consistent_of_running (sound_goto (sound_logCall sound _) _) { engaged with }
      (running_of_same_caller hrun hw rfl rfl)
      ((phaseOk_txLoad rfl).2 ⟨hready, hoff.trans_lt hsize, hfree⟩)
  · have hwait := sound_txWait (sound_logCall sound .txFull) hbudget
    rw [txWait_eq] at hwait ⊢
    exact consistent_of_running hwait { engaged with }
      (running_of_same_caller hrun hw hw rfl) ((phaseOk_txWaitFree (by exact hf)).2 ⟨hready, hoff⟩)

theorem txLoad_consistent (hs : Consistent s) (hf : s.fsm = .txLoad)
    (hrun : running s = some i) (h : txLoad s = .next t) : Consistent t := by
  have sound := sound_of_consistent hs
  have engaged := engaged_of_consistent hs hrun
  have hw : writeRuns s = true := by simp [writeRuns, hf]
  obtain ⟨hready, hoff, hfree⟩ := (phaseOk_txLoad hf).1 (phase_of_consistent hs)
  obtain ⟨_, rfl⟩ := txLoad_cases h
  have hd : DpFits s.params
      { s.dp with
        chunkLen := BitVec.ofNat 4 (chunkLength s.dp.txSize s.dp.txOff)
        chunk := Memory.loadInto s.mem (s.dp.txBase + s.dp.txOff) s.dp.chunk
          (chunkLength s.dp.txSize s.dp.txOff)
        errSnap := s.periph.tec } :=
    { sound.dp with errSnap := sound.tec }
  exact consistent_of_running (sound_goto (sound_logCall (sound_setDp sound hd) _) _)
    { engaged with } (running_of_same_caller hrun hw rfl rfl)
    ((phaseOk_txTrigger rfl).2 ⟨⟨hready, hoff, chunkLength_toNat _ _⟩, hfree⟩)

theorem txTrigger_consistent (hs : Consistent s) (hf : s.fsm = .txTrigger)
    (hrun : running s = some i) (h : txTrigger s = .next t) : Consistent t := by
  have sound := sound_of_consistent hs
  have engaged := engaged_of_consistent hs hrun
  have hw : writeRuns s = true := by simp [writeRuns, hf]
  obtain ⟨hchunk, _⟩ := (phaseOk_txTrigger hf).1 (phase_of_consistent hs)
  rw [txTrigger_eq] at h
  cases h
  exact consistent_of_running { sound with irqMask := rfl } { engaged with }
    (running_of_same_caller hrun hw rfl rfl) ((phaseOk_txPollErr rfl).2 hchunk)

theorem txPollErr_consistent (hs : Consistent s) (hf : s.fsm = .txPollErr)
    (hrun : running s = some i) (h : txPollErr s = .next t) : Consistent t := by
  have sound := sound_of_consistent hs
  have engaged := engaged_of_consistent hs hrun
  have hw : writeRuns s = true := by simp [writeRuns, hf]
  have hchunk := (phaseOk_txPollErr hf).1 (phase_of_consistent hs)
  have ⟨⟨hcaller, _⟩, _⟩ := hchunk
  obtain ⟨_, rfl⟩ | ⟨_, _, rfl⟩ | ⟨hbudget, _, rfl⟩ := txPollErr_cases h
  · exact consistent_txReturn sound engaged hrun hw hcaller _ _
  · exact consistent_txReturn (s := logCall s .txErrCount) (sound_logCall sound _)
      { engaged with } hrun hw hcaller _ _
  · exact consistent_of_running (sound_goto (sound_logCall sound _) _) { engaged with }
      (running_of_same_caller hrun hw rfl rfl)
      ((phaseOk_txPollFree rfl).2 ⟨hchunk, hbudget⟩)

theorem txPollFree_consistent (hs : Consistent s) (hf : s.fsm = .txPollFree)
    (hrun : running s = some i) (h : txPollFree s = .next t) : Consistent t := by
  have sound := sound_of_consistent hs
  have engaged := engaged_of_consistent hs hrun
  have hw : writeRuns s = true := by simp [writeRuns, hf]
  obtain ⟨hchunk, hbudget⟩ := (phaseOk_txPollFree hf).1 (phase_of_consistent hs)
  obtain ⟨hready, hoff, hlen⟩ := hchunk
  obtain ⟨hfree, rfl⟩ | ⟨_, rfl⟩ := txPollFree_cases h
  · have hle : s.dp.txOff + s.dp.chunkLen.toNat ≤ s.dp.txSize := by
      have : chunkLength s.dp.txSize s.dp.txOff ≤ s.dp.txSize - s.dp.txOff := Nat.min_le_right _ _
      omega
    have hlt := hle.trans_lt sound.dp.txSize
    rw [cut_of_lt hlt]
    have hd : DpFits s.params { s.dp with txOff := s.dp.txOff + s.dp.chunkLen.toNat } :=
      { sound.dp with txOff := hlt }
    have hsound := sound_setDp (sound_logCall sound .txFull) hd
    split
    next hlast =>
      exact consistent_of_running (sound_goto hsound _) { engaged with }
        (running_of_same_caller hrun hw rfl rfl) ((phaseOk_txFinal rfl).2 ⟨hready, hlast⟩)
    next hmore =>
      exact consistent_of_running (sound_goto hsound _) { engaged with }
        (running_of_same_caller hrun hw rfl rfl)
        ((phaseOk_txLoad rfl).2 ⟨hready, Nat.lt_of_le_of_ne hle hmore, hfree⟩)
  · have hwait := sound_txWait (sound_logCall sound .txFull) hbudget
    rw [txWait_eq] at hwait ⊢
    exact consistent_of_running (sound_goto hwait _) { engaged with }
      (running_of_same_caller hrun hw rfl rfl)
      ((phaseOk_txPollErr rfl).2 ⟨hready, hoff, hlen⟩)

theorem txFinal_consistent (hs : Consistent s) (hf : s.fsm = .txFinal)
    (hrun : running s = some i) (h : txFinal s = .next t) : Consistent t := by
  have sound := sound_of_consistent hs
  have engaged := engaged_of_consistent hs hrun
  have hw : writeRuns s = true := by simp [writeRuns, hf]
  obtain ⟨⟨hcaller, _⟩, _⟩ := (phaseOk_txFinal hf).1 (phase_of_consistent hs)
  obtain ⟨_, rfl⟩ | ⟨_, rfl⟩ := txFinal_cases h
  all_goals
    exact consistent_txReturn (s := logCall s .busState) (sound_logCall sound _)
      { engaged with } hrun hw hcaller _ _

/-- Some command runs in every `TX_*` state. -/
theorem running_of_writeRuns (hw : writeRuns s = true) : ∃ i, running s = some i := by
  cases hr : s.dp.txRet with
  | host => exact ⟨_, running_of_host hw hr⟩
  | rx => exact ⟨_, running_of_echo hw hr⟩

/-- Every micro-step keeps the invariant. -/
theorem microStep_consistent (hs : Consistent s) (h : microStep s = .next t) : Consistent t := by
  unfold microStep at h
  have hrun := running_of_writeRuns (s := s)
  unfold writeRuns at hrun
  cases hf : s.fsm <;> simp only [hf, true_imp_iff] at h hrun
  case idle => cases h; exact hs
  case fault => cases h; exact hs
  case rxStart => exact rxStart_consistent hs hf h
  case rxClear => exact rxClear_consistent hs hf h
  case rxPassTop => exact rxPassTop_consistent hs hf h
  case rxBus => exact rxBus_consistent hs hf h
  case rxTest => exact rxTest_consistent hs hf h
  case rxFilter => exact rxFilter_consistent hs hf h
  case rxCopy => exact rxCopy_consistent hs hf h
  case rxRelease => exact rxReleaseStep_consistent hs hf h
  case rxEcho => exact rxEcho_consistent hs hf h
  case rxAdvance => exact rxAdvance_consistent hs hf h
  case rxPassEnd => exact rxPassEnd_consistent hs hf h
  case rxFinal => exact rxFinal_consistent hs hf h
  all_goals obtain ⟨_, hrun⟩ := hrun
  case txStart => exact txStart_consistent hs hf hrun h
  case txWaitFree => exact txWaitFree_consistent hs hf hrun h
  case txLoad => exact txLoad_consistent hs hf hrun h
  case txTrigger => exact txTrigger_consistent hs hf hrun h
  case txPollErr => exact txPollErr_consistent hs hf hrun h
  case txPollFree => exact txPollFree_consistent hs hf hrun h
  case txFinal => exact txFinal_consistent hs hf hrun h

/-! ## The other agents -/

/-- No command runs while `BUSY = 0`: the block is idle or stopped. -/
theorem idle_of_not_busy (hcontrol : controlOk s) (hb : s.busy = false) :
    s.fsm = .idle ∨ s.fsm = .fault := by
  obtain ⟨hbusy, _⟩ := hcontrol
  by_contra hne
  exact absurd (hbusy.2 (not_or.1 hne)) (by simp [hb])

/-- While no command runs the flags alone make a sound state consistent. -/
theorem consistent_of_not_busy (hs : Consistent s) (hb : s.busy = false) (ht : Sound t)
    (hbusy : t.busy = s.busy) (hfsm : t.fsm = s.fsm) (hfault : t.fault = s.fault)
    (hcause : t.faultCause = s.faultCause) (hinfo : t.faultInfo = s.faultInfo) :
    Consistent t := by
  have control := control_of_consistent hs
  have ⟨h1, h2, h3, h4, _⟩ := control
  refine consistent_of_parts ht ⟨?_, ?_, ?_, ?_, ?_, ?_, ht.irqMask, ht.cursor⟩ ?_
  · rw [hbusy, hfsm]; exact h1
  · rw [hfault, hfsm]; exact h2
  · rw [hfault, hcause]; exact h3
  · rw [hfault, hinfo]; exact h4
  · exact fun h => absurd (hbusy.symm.trans h) (by simp [hb])
  · exact fun h => absurd (hbusy.symm.trans h) (by simp [hb])
  · obtain hf | hf := idle_of_not_busy control hb <;> simp only [phaseOk, hfsm, hf]

/-- What an accepted `CMD` write finds in the flags of a block that is not faulted. -/
theorem engaged_of_accepted (hcontrol : controlOk s) (hf : s.fault = false) (i : Instr) :
    Engaged i (accepted s i) := by
  obtain ⟨_, _, hcause, hinfo, _⟩ := hcontrol
  exact ⟨rfl, hf, not_not.1 fun hne => absurd (hcause.2 hne) (by simp [hf]), hinfo hf, rfl, rfl⟩

theorem startRead_consistent (hs : Consistent s) (hf : s.fault = false) :
    Consistent (startRead s) := by
  have sound := sound_of_consistent hs
  have engaged := engaged_of_accepted (control_of_consistent hs) hf .read
  exact consistent_of_running (i := .read) { sound with } { engaged with } rfl rfl

theorem startWrite_consistent (hs : Consistent s) (hf : s.fault = false) :
    Consistent (startWrite s) := by
  have sound := sound_of_consistent hs
  have engaged := engaged_of_accepted (control_of_consistent hs) hf .write
  have hd : DpFits s.params
      { s.dp with
        txBase := s.bufBase, txSize := s.bufSize, txTimeout := s.timeout, txRet := .host } :=
    { sound.dp with
      txBase := sound.bufBase, txSize := sound.bufSize, txTimeout := sound.timeout }
  exact consistent_of_running (i := .write) { sound with dp := hd } { engaged with } rfl
    ((phaseOk_txStart rfl).2 ⟨fun _ => ⟨rfl, rfl, rfl⟩, fun hr => nomatch hr⟩)

/-- The register port stores a value of the register's width and no flag of `STATUS`. -/
theorem storeReg_consistent {offset : Nat} {data : Word} (hs : Consistent s)
    (hb : s.busy = false) (h : storeReg offset data s = some t) : Consistent t := by
  have sound := sound_of_consistent hs
  obtain ⟨_, rfl⟩ | ⟨_, rfl⟩ | ⟨_, rfl⟩ | ⟨_, rfl⟩ | ⟨_, rfl⟩ | ⟨_, rfl⟩ | ⟨_, rfl⟩ :=
    storeReg_cases h
  case inl =>
    exact consistent_of_not_busy hs hb { sound with bufBase := cut_lt _ _ } rfl rfl rfl rfl rfl
  case inr.inl =>
    exact consistent_of_not_busy hs hb { sound with bufSize := cut_lt _ _ } rfl rfl rfl rfl rfl
  case inr.inr.inl =>
    exact consistent_of_not_busy hs hb { sound with timeout := cut_lt _ _ } rfl rfl rfl rfl rfl
  all_goals exact consistent_of_not_busy hs hb { sound with } rfl rfl rfl rfl rfl

/-- The conditions of the states ask of the peripheral only that a held slot stays full and that a
free transmit slot stays free. -/
theorem phaseOk_of_periph {p : Peripheral}
    (hheld : slotHeld s → slotHeld { s with periph := p })
    (htx : s.periph.tx.busy = false → p.tx.busy = false) (h : phaseOk s = true) :
    phaseOk { s with periph := p } = true := by
  cases hf : s.fsm
  case rxFilter =>
    obtain ⟨hready, hbudget, hprod, hc, hslot⟩ := (phaseOk_rxFilter hf).1 h
    exact (phaseOk_rxFilter rfl).2 ⟨hready, hbudget, hprod, hc, hheld hslot⟩
  case rxCopy =>
    exact (phaseOk_rxCopy rfl).2 (((phaseOk_rxCopy hf).1 h).imp_right hheld)
  case rxRelease =>
    exact (phaseOk_rxRelease rfl).2 (((phaseOk_rxRelease hf).1 h).imp_right hheld)
  case txLoad =>
    obtain ⟨hready, hoff, hfree⟩ := (phaseOk_txLoad hf).1 h
    exact (phaseOk_txLoad rfl).2 ⟨hready, hoff, htx hfree⟩
  case txTrigger =>
    exact (phaseOk_txTrigger rfl).2 (((phaseOk_txTrigger hf).1 h).imp_right htx)
  case idle | fault | rxStart => rfl
  all_goals
    simp only [phaseOk, hf] at h ⊢
    exact h

/-- An arrival fills another slot than the one held (10_state.md rule R34, law E1). -/
theorem slotHeld_of_arrival {j : Nat} {slot new : RxSlot} (hslot : slotAt s j = some slot)
    (hempty : slot.full = false) (h : slotHeld s) :
    slotHeld { s with periph := { s.periph with slots := s.periph.slots.set j new } } := by
  have hne : j ≠ s.cursor := by
    rintro rfl
    rw [slotHeld, hslot, Option.any_some, hempty] at h
    exact absurd h (by decide)
  rw [slotHeld, slotAt] at h ⊢
  exact (congrArg _ (List.getElem?_set_ne hne)).trans h

theorem envStep_consistent {e : EnvStep} (hs : Consistent s) (h : envStep s e = .next t) :
    Consistent t := by
  have sound := sound_of_consistent hs
  have control := control_of_consistent hs
  have phase := phase_of_consistent hs
  obtain ⟨_, _, _, _, _, _, hslot, hempty, rfl⟩ | ⟨_, _, rfl⟩ | ⟨_, _, hv, rfl⟩ | ⟨_, _, _, rfl⟩ |
    ⟨_, _, _, rfl⟩ := envStep_cases h
  · refine consistent_of_parts { sound with fits := ?_ } control
      (phaseOk_of_periph (slotHeld_of_arrival hslot hempty) id phase)
    simpa [fits] using sound.fits
  · exact consistent_of_parts { sound with } control (phaseOk_of_periph id (fun _ => rfl) phase)
  · exact consistent_of_parts { sound with tec := hv } control (phaseOk_of_periph id id phase)
  · exact consistent_of_parts { sound with } control (phaseOk_of_periph id id phase)
  · exact hs

/-- `RESET` leaves values that fit in the internal registers (70_reset_and_hazards.md rule R230). -/
theorem unspecifiedDatapath_fits (p : Params) (n : Nat) : DpFits p (unspecifiedDatapath p n) := by
  have hbudget (v : Int) : budgetOk p (fitBudget p v) := by
    simp only [budgetOk, fitBudget, initialBudget]
    omega
  exact ⟨cut_lt _ _, cut_lt _ _, cut_lt _ _, cut_lt _ _, cut_lt _ _, cut_lt _ _, cut_lt _ _,
    hbudget _, hbudget _⟩

theorem blockReset_consistent (hs : Consistent s) : Consistent (blockReset s) := by
  have sound := sound_of_consistent hs
  have hpow (w : Nat) : 0 < 2 ^ w := Nat.two_pow_pos w
  exact consistent_of_parts
    { sound with
      bufBase := hpow _, bufSize := hpow _, timeout := hpow _, countReg := hpow _
      dp := unspecifiedDatapath_fits _ _, irqMask := rfl, cursor := Nat.zero_le _ }
    ⟨by simp, by simp, by simp, by simp, by simp, by simp, rfl, Nat.zero_le _⟩ rfl

/-! ## The statements -/

/-- Every move of every agent keeps the invariant. -/
theorem moves_consistent {u : Turn} (hs : Consistent s) (h : Moves s u t) : Consistent t := by
  have sound := sound_of_consistent hs
  cases h with
  | wait => exact hs
  | micro _ h => exact microStep_consistent hs h
  | env h => exact envStep_consistent hs h
  | fault x c n hc => exact consistent_raiseFault sound (cause_ne_none_of_faulted hs) hc n
  | startRead _ _ hf => exact startRead_consistent hs hf
  | startWrite _ _ hf => exact startWrite_consistent hs hf
  | store _ hb _ h => exact storeReg_consistent hs hb h
  | regRead | bufRead => exact hs
  | bufWrite _ a v hb ha =>
    have hmem := And.intro (write_wf s.mem a v sound.mem.1) (write_bound s.mem a v _ ha sound.mem.2)
    exact consistent_of_not_busy hs hb { sound with mem := hmem } rfl rfl rfl rfl rfl
  | periphReset p hb hlen htec =>
    have hfits : fits { s with periph := p } = true := by
      have := sound.fits
      simp_all [fits]
    exact consistent_of_not_busy hs hb { sound with fits := hfits, tec := htec } rfl rfl rfl rfl rfl
  | reset => exact blockReset_consistent hs

end

/-- Settles O43: a step is a move in the state with the turn taken off, which is consistent too. -/
theorem everyStepKeepsConsistent : Obligations.EveryStepKeepsConsistent := by
  intro s t hs h
  obtain ⟨_, _, hmove⟩ := step_moves h
  exact moves_consistent (s := popTurn s) hs hmove

end Sys2Proof.Machine

/-!
SUPPORT. The block never accesses what does not exist (20_memory.md rules R61 and R63): in a
consistent state every micro-step answers a next state, and no other turn can fault the machine.
-/

namespace Sys2Proof.Machine

open Sys2Proof.Config Sys2Proof.Safety

section
variable {s : State}

/-! ## The bytes of a started READ's buffer -/

/-- The length field of a buffer of 8 bytes is in the buffer memory. -/
theorem lenField_in_space (h : readReady s) : bufAddr s 3 < spaceEnd s := by
  obtain ⟨hmin, hin, _⟩ := h
  simp only [bufAddr, maxFrameLen] at *
  omega

/-- Within the buffer `Complete` always answers (42_datapath.md rule R174). -/
theorem complete_answers (h : readReady s) {n : Nat} (hn : n ≤ s.bufSize) :
    ∃ b, complete s n = some b := by
  refine ⟨_, complete_eq (lenField_in_space h) ?_⟩
  obtain ⟨hmin, hin, _⟩ := h
  simp only [bufAddr, maxFrameLen] at *
  omega

/-! ## Every micro-step of a consistent state answers a next state -/

theorem rxClear_next (hs : Consistent s) (hf : s.fsm = .rxClear) : ∃ t, rxClear s = .next t := by
  obtain ⟨⟨_, hin, _⟩, _⟩ := (phaseOk_rxClear hf).1 (phase_of_consistent hs)
  exact ⟨_, rxClear_of_inSpace (inSpace_of_le hin)⟩

theorem rxTest_next (hs : Consistent s) (hf : s.fsm = .rxTest) : ∃ t, rxTest s = .next t := by
  obtain ⟨_, _, _, hc⟩ := (phaseOk_rxTest hf).1 (phase_of_consistent hs)
  obtain ⟨slot, hslot⟩ := slot_of_lt (sound_of_consistent hs).fits hc
  cases hfull : slot.full
  · exact ⟨_, rxTest_of_empty hslot hfull⟩
  · exact ⟨_, rxTest_of_full hslot hfull⟩

theorem rxFilter_next (hs : Consistent s) (hf : s.fsm = .rxFilter) :
    ∃ t, rxFilter s = .next t := by
  obtain ⟨_, _, _, hc, _⟩ := (phaseOk_rxFilter hf).1 (phase_of_consistent hs)
  obtain ⟨slot, hslot⟩ := slot_of_lt (sound_of_consistent hs).fits hc
  cases hacc : accept s slot.id
  · exact ⟨_, rxFilter_of_rejected hslot hacc⟩
  · by_cases hlen : slot.len.toNat ≤ maxFrameLen
    · by_cases hroom : s.dp.count + slot.len.toNat ≤ s.bufSize
      · exact ⟨_, rxFilter_of_taken hslot hacc hlen hroom⟩
      · exact ⟨_, rxFilter_of_overrun hslot hacc hlen (not_le.1 hroom)⟩
    · exact ⟨_, rxFilter_of_overlong hslot hacc (not_le.1 hlen)⟩

theorem rxCopy_next (hs : Consistent s) (hf : s.fsm = .rxCopy) : ∃ t, rxCopy s = .next t := by
  obtain ⟨htaken, _⟩ := (phaseOk_rxCopy hf).1 (phase_of_consistent hs)
  have ⟨_, _, hc, _, hlen, _⟩ := htaken
  obtain ⟨_, hslot⟩ := slot_of_lt (sound_of_consistent hs).fits hc
  exact ⟨_, rxCopy_of_inSpace hslot hlen (inSpace_of_le (frame_in_space htaken))⟩

theorem rxReleaseStep_next (hs : Consistent s) (hf : s.fsm = .rxRelease) :
    ∃ t, rxReleaseStep s = .next t := by
  obtain ⟨⟨_, _, hc, _⟩, _⟩ := (phaseOk_rxRelease hf).1 (phase_of_consistent hs)
  obtain ⟨_, hslot⟩ := slot_of_lt (sound_of_consistent hs).fits hc
  exact ⟨_, rxReleaseStep_of_slot hslot⟩

theorem rxAdvance_next (hs : Consistent s) (hf : s.fsm = .rxAdvance) :
    ∃ t, rxAdvance s = .next t := by
  obtain ⟨hready, _, _, _, _, hroom⟩ := (phaseOk_rxAdvance hf).1 (phase_of_consistent hs)
  have hfits := hroom.trans_lt (sound_of_consistent hs).bufSize
  obtain ⟨b, hb⟩ := complete_answers hready hroom
  cases b
  · exact ⟨_, rxAdvance_of_incomplete hfits hb⟩
  · exact ⟨_, rxAdvance_of_complete hfits hb⟩

theorem rxFinal_next (hs : Consistent s) (hf : s.fsm = .rxFinal) : ∃ t, rxFinal s = .next t := by
  have hready := (phaseOk_rxFinal hf).1 (phase_of_consistent hs)
  have ⟨_, _, hcount⟩ := hready
  obtain ⟨b, hb⟩ := complete_answers hready hcount
  cases b
  · exact ⟨_, rxFinal_of_incomplete hb⟩
  · exact ⟨_, rxFinal_of_complete hb⟩

theorem txLoad_next (hs : Consistent s) (hf : s.fsm = .txLoad) : ∃ t, txLoad s = .next t := by
  obtain ⟨⟨_, _, hin⟩, hoff, _⟩ := (phaseOk_txLoad hf).1 (phase_of_consistent hs)
  exact ⟨_, txLoad_of_inSpace (inSpace_chunk hoff hin)⟩

/-- The micro-steps that access neither slot nor buffer answer from every state. -/
theorem microStep_next_of_no_access (h : s.fsm ∉ [.rxClear, .rxTest, .rxFilter, .rxCopy,
    .rxRelease, .rxAdvance, .rxFinal, .txLoad]) : ∃ t, microStep s = .next t := by
  unfold microStep
  cases hf : s.fsm <;> simp only [hf, List.mem_cons, reduceCtorEq, List.not_mem_nil, or_false,
    or_true, not_true_eq_false] at h ⊢
  case idle | fault | rxEcho | txTrigger => exact ⟨_, rfl⟩
  case rxStart => unfold rxStart; split_ifs <;> exact ⟨_, rfl⟩
  case rxPassTop => unfold rxPassTop; split_ifs <;> exact ⟨_, rfl⟩
  case rxBus => unfold rxBus; dsimp only; split_ifs <;> exact ⟨_, rfl⟩
  case rxPassEnd => unfold rxPassEnd; split_ifs <;> exact ⟨_, rfl⟩
  case txStart => unfold txStart; split_ifs <;> exact ⟨_, rfl⟩
  case txWaitFree => unfold txWaitFree; dsimp only; split_ifs <;> exact ⟨_, rfl⟩
  case txPollErr => unfold txPollErr; dsimp only; split_ifs <;> exact ⟨_, rfl⟩
  case txPollFree => unfold txPollFree; dsimp only; split_ifs <;> exact ⟨_, rfl⟩
  case txFinal => unfold txFinal; dsimp only; split_ifs <;> exact ⟨_, rfl⟩

theorem microStep_next (hs : Consistent s) : ∃ t, microStep s = .next t := by
  by_cases h : s.fsm ∈ [.rxClear, .rxTest, .rxFilter, .rxCopy, .rxRelease, .rxAdvance, .rxFinal,
    .txLoad]
  case neg => exact microStep_next_of_no_access h
  simp only [List.mem_cons, List.not_mem_nil, or_false] at h
  obtain hf | hf | hf | hf | hf | hf | hf | hf := h <;> simp only [microStep, hf]
  · exact rxClear_next hs hf
  · exact rxTest_next hs hf
  · exact rxFilter_next hs hf
  · exact rxCopy_next hs hf
  · exact rxReleaseStep_next hs hf
  · exact rxAdvance_next hs hf
  · exact rxFinal_next hs hf
  · exact txLoad_next hs hf

/-! ## Only a micro-step faults the machine -/

theorem exec_fault {i : Instr} {r : Machine.Fault} (h : exec i s = .fault r) :
    microStep s = .fault r := by
  by_cases hrun : running s = some i
  · rwa [exec_of_running hrun] at h
  · rw [exec_of_not_running hrun] at h
    cases h

theorem writeCmd_fault {w : Word} {r : Machine.Fault} (h : writeCmd s w = .fault r) :
    microStep s = .fault r := by
  unfold writeCmd at h
  split at h
  · exact exec_fault h
  · cases h

theorem hostWrite_fault {offset width : Nat} {data : Word} {r : Machine.Fault}
    (h : hostWrite s offset width data = .fault r) : microStep s = .fault r := by
  unfold hostWrite at h
  split_ifs at h
  · exact writeCmd_fault h
  · split at h <;> cases h

theorem hostStep_fault {x : HostStep} {r : Machine.Fault} (h : hostStep s x = .fault r) :
    microStep s = .fault r := by
  cases x <;> simp only [hostStep] at h
  case regWrite =>
    split at h
    · exact hostWrite_fault h
    · cases h
  case regRead =>
    split at h
    · unfold hostRead at h
      split_ifs at h
    · cases h
  all_goals split_ifs at h

theorem envStep_ne_fault (e : EnvStep) (r : Machine.Fault) : envStep s e ≠ .fault r := by
  intro h
  cases e <;> simp only [envStep] at h
  case arrive =>
    split at h
    · cases h
    · split_ifs at h
  all_goals split_ifs at h

theorem takeTurn_fault {u : Turn} {r : Machine.Fault} (h : takeTurn s u = .fault r) :
    microStep s = .fault r := by
  cases u with
  | block =>
    simp only [takeTurn, blockTurn] at h
    split at h
    · exact exec_fault h
    · cases h
  | env e => exact absurd h (envStep_ne_fault e r)
  | host x => exact hostStep_fault h
  | reset => cases h

/-- A step of a consistent state never faults. -/
theorem step_ne_fault (hs : Consistent s) (r : Machine.Fault) : step s ≠ .fault r := by
  intro h
  rw [step_of_fits (sound_of_consistent hs).fits] at h
  have hpopped : Consistent (popTurn s) := hs
  obtain ⟨t, ht⟩ := microStep_next hpopped
  cases ht.symm.trans (takeTurn_fault h)

end

/-! ## Runs -/

theorem run_succ_of_next {k : Nat} {s t : State} (h : step s = .next t) :
    run (k + 1) s = run k t := by
  have hstep : core.step s = .next t := h
  have hrun : core.run (k + 1) s = core.run k t := by simp only [Host.Core.run, hstep]
  exact hrun

theorem run_succ_of_fault {k : Nat} {s : State} {r : Machine.Fault} (h : step s = .fault r) :
    run (k + 1) s = .fault r := by
  have hstep : core.step s = .fault r := h
  have hrun : core.run (k + 1) s = .fault r := by simp only [Host.Core.run, hstep]
  exact hrun

theorem run_succ_of_refused {k : Nat} {s : State} {r : Machine.Refusal}
    (h : step s = .refused r) : run (k + 1) s = .refused r := by
  have hstep : core.step s = .refused r := h
  have hrun : core.run (k + 1) s = .refused r := by simp only [Host.Core.run, hstep]
  exact hrun

/-- Settles O44: by induction on the run, whose every state is consistent (O43), and no step of a
consistent state faults. -/
theorem consistentRunNeverFaults : Obligations.ConsistentRunNeverFaults := by
  intro k
  induction k with
  | zero => intro s r _ h; cases h
  | succ k ih =>
    intro s r hs h
    cases hstep : step s with
    | next t =>
      rw [run_succ_of_next hstep] at h
      exact ih t r (everyStepKeepsConsistent s t hs hstep) h
    | fault r => exact step_ne_fault hs r hstep
    | refused e =>
      rw [run_succ_of_refused hstep] at h
      cases h

end Sys2Proof.Machine

/-!
SUPPORT. The scan of a READ (41_receive.md rules R143 and R154): the bytes received so far are never
a complete packet while it goes on, and the cursor moves past examined slots only.
-/

namespace Sys2Proof.Machine

open Sys2Proof.Config Sys2Proof.Safety

section
variable {s t : State}

/-! ## Which command a scan belongs to -/

theorem running_of_scanning (h : scanning s.fsm = true) : running s = some .read := by
  unfold running
  cases hf : s.fsm <;> simp [scanning, hf] at h ⊢

/-- `NoPacketYet` speaks of a READ that runs. -/
theorem noPacketYet_of_not_read (h : running s ≠ some .read) : NoPacketYet s := by
  rintro (hscan | ⟨hrun, _⟩)
  · exact absurd (running_of_scanning hscan) h
  · exact absurd hrun h

theorem not_read_of_not_busy (hs : Consistent s) (hb : s.busy = false) :
    running s ≠ some .read := by
  intro hrun
  exact absurd (engaged_of_consistent hs hrun).busy (by simp [hb])

/-- A micro-step never turns a WRITE into a READ: `LAST_OP` stays. -/
theorem running_of_running_read (hs : Consistent s) (ht : Consistent t)
    (h : microStep s = .next t) (hrun : running t = some .read) {i : Instr}
    (hi : running s = some i) : i = .read := by
  have hlast := (engaged_of_consistent ht hrun).lastOp
  rw [(microStep_frame h).lastOp, (engaged_of_consistent hs hi).lastOp] at hlast
  exact Option.some.inj hlast

/-! ## The bytes received so far (rule R154) -/

/-- Only the start of a READ and `RX_ADVANCE` write the running count. -/
theorem microStep_count (hstart : s.fsm ≠ .rxStart) (hadvance : s.fsm ≠ .rxAdvance)
    (h : microStep s = .next t) : t.dp.count = s.dp.count := by
  cases hw : writeRuns s with
  | true => exact (microStep_txFrame hw h).count
  | false =>
    unfold microStep at h
    unfold writeRuns at hw
    cases hf : s.fsm <;> simp only [hf] at h hw
    case idle => cases h; rfl
    case fault => cases h; rfl
    case rxStart => exact absurd hf hstart
    case rxClear => obtain ⟨_, rfl⟩ := rxClear_cases h; rfl
    case rxPassTop =>
      obtain ⟨_, rfl⟩ | ⟨_, _, rfl⟩ | ⟨_, _, rfl⟩ := rxPassTop_cases h <;> rfl
    case rxBus => obtain ⟨_, rfl⟩ | ⟨_, _, rfl⟩ | ⟨_, _, rfl⟩ := rxBus_cases h <;> rfl
    case rxTest => obtain ⟨_, _, ⟨_, rfl⟩ | ⟨_, rfl⟩⟩ := rxTest_cases h <;> rfl
    case rxFilter =>
      obtain ⟨_, _, ⟨_, rfl⟩ | ⟨_, _, rfl⟩ | ⟨_, _, _, rfl⟩ | ⟨_, _, _, rfl⟩⟩ :=
        rxFilter_cases h <;> rfl
    case rxCopy => obtain ⟨_, _, _, _, rfl⟩ := rxCopy_cases h; rfl
    case rxRelease => obtain ⟨_, rfl⟩ := rxReleaseStep_cases h; rfl
    case rxEcho => cases h; rfl
    case rxAdvance => exact absurd hf hadvance
    case rxPassEnd => obtain ⟨_, rfl⟩ | ⟨_, rfl⟩ := rxPassEnd_cases h <;> rfl
    case rxFinal => obtain ⟨_, rfl⟩ | ⟨_, rfl⟩ := rxFinal_cases h <;> rfl
    all_goals cases hw

/-- `RX_START` goes to `RX_CLEAR`, to `IDLE` or to `FAULT`: it scans nothing. -/
theorem rxStart_noPacket (h : rxStart s = .next t) : NoPacketYet t := by
  obtain ⟨_, rfl⟩ | ⟨_, _, rfl⟩ | ⟨_, _, rfl⟩ | ⟨_, _, rfl⟩ := rxStart_cases h
  all_goals
    rintro (hscan | ⟨_, hw⟩)
    · exact absurd hscan (by simp [scanning])
    · exact absurd hw (by simp [writeRuns])

/-- The scan begins with no byte received, and a packet has at least 7 (rule R178). -/
theorem rxClear_noPacket (hs : Consistent s) (hf : s.fsm = .rxClear)
    (h : rxClear s = .next t) : complete t t.dp.count = some false := by
  obtain ⟨hready, hcount, _⟩ := (phaseOk_rxClear hf).1 (phase_of_consistent hs)
  obtain ⟨_, rfl⟩ := rxClear_cases h
  refine complete_below_seven (lenField_in_space hready) ?_
  exact hcount.trans_lt (by decide)

/-- The copy stores behind the bytes already received, which alone decide completion. -/
theorem rxCopy_noPacket (hs : Consistent s) (hf : s.fsm = .rxCopy)
    (hn : complete s s.dp.count = some false) (h : rxCopy s = .next t) :
    complete t t.dp.count = some false := by
  obtain ⟨⟨hready, _⟩, _⟩ := (phaseOk_rxCopy hf).1 (phase_of_consistent hs)
  have frame := rxCopy_frame hf h
  have hcount : t.dp.count = s.dp.count := by
    obtain ⟨_, _, _, _, rfl⟩ := rxCopy_cases h
    rfl
  rw [hcount]
  by_cases hseven : s.dp.count < overhead
  · refine complete_below_seven ?_ hseven
    rw [bufAddr, frame.bufBase, spaceEnd, frame.params]
    exact lenField_in_space hready
  · rw [complete_of_agree frame.params frame.bufBase (not_lt.1 hseven), hn]
    intro i hi
    refine rxCopy_reads_outside (sound_of_consistent hs).mem.1 h (.inl ?_)
    simp only [bufAddr]
    omega

/-- `RX_ADVANCE` goes on only where the count it advanced to is no complete packet. -/
theorem rxAdvance_noPacket (h : rxAdvance s = .next t) : NoPacketYet t := by
  obtain ⟨_, rfl⟩ | ⟨hno, rfl⟩ := rxAdvance_cases h
  · exact noPacketYet_of_not_read (by simp [running])
  · exact fun _ => hno

/-- Every micro-step of a running READ keeps `NoPacketYet`. -/
theorem microStep_noPacket (hs : Consistent s) (hn : NoPacketYet s)
    (h : microStep s = .next t) : NoPacketYet t := by
  have ht := microStep_consistent hs h
  have frame := microStep_frame h
  have carried (hmem : t.mem = s.mem) (hcount : t.dp.count = s.dp.count)
      (hno : complete s s.dp.count = some false) : complete t t.dp.count = some false := by
    rw [hcount, complete_congr _ frame.params hmem frame.bufBase, hno]
  cases hw : writeRuns s with
  | true =>
    obtain ⟨i, hi⟩ := running_of_writeRuns hw
    intro hscan
    have hread : running t = some .read := hscan.elim running_of_scanning And.left
    obtain rfl := running_of_running_read hs ht h hread hi
    have tx := microStep_txFrame hw h
    exact carried tx.mem tx.count (hn (.inr ⟨hi, hw⟩))
  | false =>
    have rx := microStep_rxFrame hw h
    by_cases hstart : s.fsm = .rxStart
    · simp only [microStep, hstart] at h
      exact rxStart_noPacket h
    by_cases hclear : s.fsm = .rxClear
    · simp only [microStep, hclear] at h
      exact fun _ => rxClear_noPacket hs hclear h
    by_cases hadvance : s.fsm = .rxAdvance
    · simp only [microStep, hadvance] at h
      exact rxAdvance_noPacket h
    have hcount := microStep_count hstart hadvance h
    cases hscan : scanning s.fsm with
    | true =>
      have hno := hn (.inl hscan)
      by_cases hcopy : s.fsm = .rxCopy
      · simp only [microStep, hcopy] at h
        exact fun _ => rxCopy_noPacket hs hcopy hno h
      · exact fun _ => carried (rx.mem hclear hcopy) hcount hno
    | false =>
      have hidle : s.fsm = .idle ∨ s.fsm = .fault := by
        unfold writeRuns at hw
        cases hf : s.fsm <;> simp_all [scanning]
      have hsame : t = s := by
        obtain hf | hf := hidle
        all_goals
          simp only [microStep, hf] at h
          cases h
          rfl
      rw [hsame]
      exact hn

/-- Every move of every agent keeps `NoPacketYet`: beside the block's only moves of an idle block
reach the buffer. -/
theorem moves_noPacket {u : Turn} (hs : Consistent s) (hn : NoPacketYet s) (h : Moves s u t) :
    NoPacketYet t := by
  have ht := moves_consistent hs h
  cases h with
  | wait | regRead | bufRead | periphReset => exact hn
  | micro _ h => exact microStep_noPacket hs hn h
  | env h =>
    obtain ⟨_, _, _, _, _, _, _, _, rfl⟩ | ⟨_, _, rfl⟩ | ⟨_, _, _, rfl⟩ | ⟨_, _, _, rfl⟩ |
      ⟨_, _, _, rfl⟩ := envStep_cases h
    all_goals exact hn
  | fault | reset => exact noPacketYet_of_not_read (by simp [running])
  | startRead =>
    rintro (hscan | ⟨_, hw⟩)
    · exact absurd hscan (by simp [startRead, scanning])
    · exact absurd hw (by simp [startRead, writeRuns])
  | startWrite => exact noPacketYet_of_not_read (by simp [startWrite, running])
  | store _ hb _ h =>
    refine noPacketYet_of_not_read (not_read_of_not_busy ht ?_)
    obtain ⟨_, rfl⟩ | ⟨_, rfl⟩ | ⟨_, rfl⟩ | ⟨_, rfl⟩ | ⟨_, rfl⟩ | ⟨_, rfl⟩ | ⟨_, rfl⟩ :=
      storeReg_cases h
    all_goals exact hb
  | bufWrite _ _ _ hb => exact noPacketYet_of_not_read (not_read_of_not_busy ht hb)

end

/-- Settles O46: every move keeps `NoPacketYet`, which at `RX_FINAL` is the answer of the last
check. -/
theorem finalCheckNeverHolds : Obligations.FinalCheckNeverHolds := by
  refine ⟨fun s t hs hn h => ?keeps, fun s hs hn hf => ?final⟩
  case keeps =>
    obtain ⟨_, _, hmove⟩ := step_moves h
    exact moves_noPacket (s := popTurn s) hs hn hmove
  case final =>
    have hno : complete s s.dp.count = some false := hn (.inl (by simp [scanning, hf]))
    rw [exec_read_of_rxFinal hf, rxFinal_of_incomplete hno,
      finish_of_fits (sound_of_consistent hs).dp.count]

/-! ## The cursor (10_state.md rule R26) -/

section
variable {s t : State}

/-- The next cursor fits its register. -/
theorem cut_cursor_succ (hc : s.cursor < s.params.nRx) :
    cut (cursorWidth s.params) (s.cursor + 1) = s.cursor + 1 :=
  cut_of_lt (lt_cursorWidth _ hc)

theorem rxTest_cursor {slot : RxSlot} (hc : s.cursor < s.params.nRx)
    (hslot : slotAt s s.cursor = some slot) (h : rxTest s = .next t) :
    t.cursor = if slot.full = true then s.cursor else s.cursor + 1 := by
  obtain ⟨other, hother, hcase⟩ := rxTest_cases h
  obtain rfl : other = slot := Option.some.inj (hother.symm.trans hslot)
  obtain ⟨hfull, rfl⟩ | ⟨hempty, rfl⟩ := hcase
  · exact (if_pos hfull).symm
  · rw [if_neg (by simp [hempty])]
    exact cut_cursor_succ hc

theorem rxFilter_cursor {slot : RxSlot} (hc : s.cursor < s.params.nRx)
    (hslot : slotAt s s.cursor = some slot) (h : rxFilter s = .next t) :
    t.cursor = if Accepts s slot.id then s.cursor else s.cursor + 1 := by
  obtain ⟨other, hother, hcase⟩ := rxFilter_cases h
  obtain rfl : other = slot := Option.some.inj (hother.symm.trans hslot)
  have haccept : accept s other.id = true ↔ Accepts s other.id := accept_iff_fields s other.id
  obtain ⟨hno, rfl⟩ | ⟨hyes, _, rfl⟩ | ⟨hyes, _, _, rfl⟩ | ⟨hyes, _, _, rfl⟩ := hcase
  · rw [if_neg fun h => absurd (haccept.2 h) (by simp [hno])]
    exact cut_cursor_succ hc
  all_goals exact (if_pos (haccept.1 hyes)).symm

theorem rxAdvance_cursor (hb : s.busy = true) (hc : s.cursor < s.params.nRx)
    (h : rxAdvance s = .next t) :
    t.cursor = if t.busy = true ∨ s.params.advanceOnComplete = true then s.cursor + 1
      else s.cursor := by
  obtain ⟨_, rfl⟩ | ⟨_, rfl⟩ := rxAdvance_cases h
  · cases hadv : s.params.advanceOnComplete
    · rw [if_neg Bool.false_ne_true, if_neg (by simp)]
      rfl
    · rw [if_pos rfl, if_pos (.inr rfl)]
      exact cut_cursor_succ hc
  · rw [if_pos (.inl hb)]
    exact cut_cursor_succ hc

/-- Where the micro-steps of a consistent state leave the cursor. -/
theorem microStep_cursor (hs : Consistent s) (h : microStep s = .next t) :
    t.cursor = s.cursor ∨
    (t.cursor = s.cursor + 1 ∧ s.cursor < s.params.nRx ∧
      (s.fsm = .rxTest ∨ s.fsm = .rxFilter ∨ s.fsm = .rxAdvance)) ∨
    (t.cursor = 0 ∧ s.cursor = s.params.nRx ∧ s.fsm = .rxPassTop) := by
  have phase := phase_of_consistent hs
  have sound := sound_of_consistent hs
  cases hw : writeRuns s with
  | true => exact .inl (microStep_txFrame hw h).cursor
  | false =>
    unfold microStep at h
    unfold writeRuns at hw
    cases hf : s.fsm <;> simp only [hf] at h hw
    case idle => cases h; exact .inl rfl
    case fault => cases h; exact .inl rfl
    case rxStart =>
      obtain ⟨_, rfl⟩ | ⟨_, _, rfl⟩ | ⟨_, _, rfl⟩ | ⟨_, _, rfl⟩ := rxStart_cases h <;>
        exact .inl rfl
    case rxClear => obtain ⟨_, rfl⟩ := rxClear_cases h; exact .inl rfl
    case rxPassTop =>
      obtain ⟨_, rfl⟩ | ⟨_, hc, rfl⟩ | ⟨_, _, rfl⟩ := rxPassTop_cases h
      · exact .inl rfl
      · exact .inr (.inr ⟨Nat.zero_mod _, Nat.le_antisymm sound.cursor hc, rfl⟩)
      · exact .inl rfl
    case rxBus =>
      obtain ⟨_, rfl⟩ | ⟨_, _, rfl⟩ | ⟨_, _, rfl⟩ := rxBus_cases h <;> exact .inl rfl
    case rxTest =>
      obtain ⟨_, _, _, hc⟩ := (phaseOk_rxTest hf).1 phase
      obtain ⟨_, hslot⟩ := slot_of_lt sound.fits hc
      rw [rxTest_cursor hc hslot h]
      split
      · exact .inl rfl
      · exact .inr (.inl ⟨rfl, hc, .inl rfl⟩)
    case rxFilter =>
      obtain ⟨_, _, _, hc, _⟩ := (phaseOk_rxFilter hf).1 phase
      obtain ⟨_, hslot⟩ := slot_of_lt sound.fits hc
      rw [rxFilter_cursor hc hslot h]
      split
      · exact .inl rfl
      · exact .inr (.inl ⟨rfl, hc, .inr (.inl rfl)⟩)
    case rxCopy => obtain ⟨_, _, _, _, rfl⟩ := rxCopy_cases h; exact .inl rfl
    case rxRelease => obtain ⟨_, rfl⟩ := rxReleaseStep_cases h; exact .inl rfl
    case rxEcho => cases h; exact .inl rfl
    case rxAdvance =>
      obtain ⟨_, _, hc, _⟩ := (phaseOk_rxAdvance hf).1 phase
      have engaged : Engaged .read s := engaged_of_consistent hs (by simp [running, hf])
      rw [rxAdvance_cursor engaged.busy hc h]
      split
      · exact .inr (.inl ⟨rfl, hc, .inr (.inr rfl)⟩)
      · exact .inl rfl
    case rxPassEnd =>
      obtain ⟨_, rfl⟩ | ⟨_, rfl⟩ := rxPassEnd_cases h <;> exact .inl rfl
    case rxFinal => obtain ⟨_, rfl⟩ | ⟨_, rfl⟩ := rxFinal_cases h <;> exact .inl rfl
    all_goals cases hw

/-- On the block's turn a running command makes its micro-step. -/
theorem microStep_of_blockStep {i : Instr} (hrun : running s = some i)
    (hu : nextTurn s = .block) (h : step s = .next t) : microStep (popTurn s) = .next t := by
  obtain ⟨_, hturn⟩ := step_cases h
  rw [hu] at hturn
  obtain ⟨hnone, _⟩ | ⟨_, hmicro⟩ := blockTurn_cases hturn
  · exact nomatch hnone.symm.trans hrun
  · exact hmicro

end

/-- Settles O49: of the moves only `RESET` and four micro-steps write the cursor, and each of those
micro-steps has its equation. -/
theorem cursorMovesOnlyInTheScan : Obligations.CursorMovesOnlyInTheScan := by
  intro s t hs h
  have sound := sound_of_consistent hs
  have phase := phase_of_consistent hs
  refine ⟨fun hreset => ?moves, fun hu => ⟨fun slot hslot => ⟨fun hf => ?test, fun hf => ?filter⟩,
    fun hf => ?advance, fun hf hbudget hc => ?wrap⟩⟩
  case moves =>
    obtain ⟨u, hu, hmove⟩ := step_moves h
    rw [hu] at hreset
    cases hmove with
    | micro _ h => exact microStep_cursor (s := popTurn s) hs h
    | env h =>
      obtain ⟨_, _, _, _, _, _, _, _, rfl⟩ | ⟨_, _, rfl⟩ | ⟨_, _, _, rfl⟩ | ⟨_, _, _, rfl⟩ |
        ⟨_, _, _, rfl⟩ := envStep_cases h
      all_goals exact .inl rfl
    | store _ _ _ h =>
      obtain ⟨_, _, _, _, hcursor, _⟩ := storeReg_frame h
      exact .inl hcursor
    | reset => exact absurd rfl hreset
    | wait | fault | startRead | startWrite | regRead | bufRead | bufWrite | periphReset =>
      exact .inl rfl
  case test =>
    obtain ⟨_, _, _, hc⟩ := (phaseOk_rxTest hf).1 phase
    have hmicro := microStep_of_blockStep (i := .read) (by simp [running, hf]) hu h
    simp only [microStep, popTurn_fsm, hf] at hmicro
    exact rxTest_cursor (s := popTurn s) hc hslot hmicro
  case filter =>
    obtain ⟨_, _, _, hc, _⟩ := (phaseOk_rxFilter hf).1 phase
    have hmicro := microStep_of_blockStep (i := .read) (by simp [running, hf]) hu h
    simp only [microStep, popTurn_fsm, hf] at hmicro
    exact rxFilter_cursor (s := popTurn s) hc hslot hmicro
  case advance =>
    obtain ⟨_, _, hc, _⟩ := (phaseOk_rxAdvance hf).1 phase
    have hrun : running s = some .read := by simp [running, hf]
    have hmicro := microStep_of_blockStep hrun hu h
    simp only [microStep, popTurn_fsm, hf] at hmicro
    exact rxAdvance_cursor (s := popTurn s) (engaged_of_consistent hs hrun).busy hc hmicro
  case wrap =>
    have hmicro := microStep_of_blockStep (i := .read) (by simp [running, hf]) hu h
    simp only [microStep, popTurn_fsm, hf] at hmicro
    rw [rxPassTop_of_wrap (s := popTurn s) hbudget hc.ge] at hmicro
    cases hmicro
    exact Nat.zero_mod _

end Sys2Proof.Machine

/-!
SUPPORT. The register port read back after a write (10_state.md rules R23 and R24), and `RESET`
(70_reset_and_hazards.md rule R230): the values it leaves, and that no run reads what an idle block's
internal registers hold (10_state.md rules R27 and R40).
-/

namespace Sys2Proof.Machine

open Sys2Proof.Config Sys2Proof.Safety

section
variable {s t : State}

/-! ## A register written and read back -/

theorem storeReg_ready {offset : Nat} {data : Word} (hs : ready s) (hfits : fits s = true)
    (h : storeReg offset data s = some t) : ready t ∧ fits t = true ∧ t.params = s.params ∧
      t.agenda = s.agenda := by
  obtain ⟨_, rfl⟩ | ⟨_, rfl⟩ | ⟨_, rfl⟩ | ⟨_, rfl⟩ | ⟨_, rfl⟩ | ⟨_, rfl⟩ | ⟨_, rfl⟩ :=
    storeReg_cases h
  all_goals exact ⟨hs, hfits, rfl, rfl⟩

/-- A write and a read of a register that the port stores, as two host turns on an idle block. -/
theorem run_write_read {rest : List Turn} {offset : Nat} {data : Word} (hfits : fits s = true)
    (hs : ready s) (haligned : offset % 4 = 0)
    (ha : s.agenda = wr s.params offset data :: rd s.params offset :: rest)
    (hst : storeReg offset data { s with agenda := rd s.params offset :: rest } = some t) :
    run 2 s = .next { t with agenda := rest, readData := readReg offset t } := by
  have hshape : shapeOk offset 4 = true := (shapeOk_iff offset 4).2 ⟨rfl, haligned⟩
  have ⟨_, hbusy, hfault⟩ := hs
  have hwrite : step s = .next t :=
    (step_of_regWrite hfits ha).trans
      (hostWrite_of_store (s := { s with agenda := rd s.params offset :: rest }) hshape hfault
        hbusy hst)
  obtain ⟨_, hfits', hparams, hagenda⟩ :=
    storeReg_ready (s := { s with agenda := rd s.params offset :: rest }) hs hfits hst
  have hread : step t = .next { t with agenda := rest, readData := readReg offset t } := by
    refine step_of_wordRead hfits' ?_ haligned ?_
    · rw [hagenda, hparams]
      rfl
    · unfold readReg
      split <;> rfl
  rw [run_succ_of_next hwrite, run_succ_of_next hread]
  rfl

/-- A stored value cut to its width reads back uncut by the 32 bits of the port. -/
theorem toNat_ofNat_cut (w : Nat) (data : Word) :
    (BitVec.ofNat 32 (cut w data.toNat)).toNat = data.toNat % 2 ^ w := by
  rw [BitVec.toNat_ofNat]
  exact Nat.mod_eq_of_lt ((Nat.mod_le _ _).trans_lt data.isLt)

theorem toNat_setWidth_setWidth {n : Nat} (hn : n ≤ 32) (data : Word) :
    ((data.setWidth n).setWidth 32).toNat = data.toNat % 2 ^ n := by
  rw [BitVec.toNat_setWidth_of_le hn, BitVec.toNat_setWidth]

/-- Settles O10: `storeReg` at each of the seven offsets, and `readReg` there after it. -/
theorem writtenRegisterReadsBack : Obligations.WrittenRegisterReadsBack := by
  intro s rest offset width data hfits hs hmem ha
  have reads {t : State} (haligned : offset % 4 = 0)
      (hst : storeReg offset data { s with agenda := rd s.params offset :: rest } = some t)
      (hval : (readReg offset t).toNat = data.toNat % 2 ^ width) :
      ∃ t : State, run 2 s = .next t ∧ t.readData.toNat = data.toNat % 2 ^ width ∧
        t.agenda = rest ∧ t.mem = s.mem ∧ t.periph = s.periph ∧ t.calls = s.calls ∧ ready t := by
    obtain ⟨hready, _⟩ :=
      storeReg_ready (s := { s with agenda := rd s.params offset :: rest }) hs hfits hst
    obtain ⟨hm, hp, hc, _⟩ := storeReg_frame hst
    exact ⟨_, run_write_read hfits hs haligned ha hst, hval, rfl, hm, hp, hc, hready⟩
  simp only [List.mem_cons, List.not_mem_nil, or_false, Prod.mk.injEq] at hmem
  obtain ⟨rfl, rfl⟩ | ⟨rfl, rfl⟩ | ⟨rfl, rfl⟩ | ⟨rfl, rfl⟩ | ⟨rfl, rfl⟩ | ⟨rfl, rfl⟩ |
    ⟨rfl, rfl⟩ := hmem
  case inl => exact reads rfl rfl (toNat_ofNat_cut _ data)
  case inr.inl => exact reads rfl rfl (toNat_ofNat_cut _ data)
  case inr.inr.inl => exact reads rfl rfl (toNat_ofNat_cut _ data)
  all_goals exact reads rfl rfl (toNat_setWidth_setWidth (by decide) data)

/-! ## What `RESET` leaves -/

/-- After `RESET` every register of the port reads 0 (10_state.md rule R40). -/
theorem readReg_blockReset (offset : Nat) (s : State) : readReg offset (blockReset s) = 0 := by
  have hstatus : statusWord (blockReset s) = 0 := by
    apply BitVec.eq_of_toNat_eq
    rw [statusWord_toNat]
    rfl
  unfold readReg
  split
  case h_1 => exact hstatus
  all_goals rfl

/-! ## The internal registers no rule reads -/

variable {d : Datapath}

/-- A command that starts writes every register it will read, so the old ones do not matter. -/
theorem issue_agree (i : Instr) (ha : AgreeIn s.fsm s.dp d) :
    Follows (.next (issue (setDp s d) (starts i))) (issue s (starts i)) := by
  obtain ⟨hf, hi⟩ | ⟨hf, hb, hi⟩ | ⟨hf, hb, hi⟩ := issue_cases s (starts i)
  · refine ⟨d, ?_, by rwa [hi]⟩
    rw [hi]
    simp [issue, hf, setDp]
  · rw [hi]
    refine ⟨d, ?_, trivial⟩
    simp [issue, hf, hb, raiseFault]
  · rw [hi]
    have hstart : issue (setDp s d) (starts i) = starts i (setDp s d) := by simp [issue, hf, hb]
    rw [hstart]
    cases i with
    | read => exact ⟨d, rfl, trivial⟩
    | write => exact ⟨_, rfl, rfl, rfl, rfl, rfl, fun hr => nomatch hr⟩

theorem exec_agree {i : Instr} (ha : AgreeIn s.fsm s.dp d) (h : exec i s = .next t) :
    Follows (exec i (setDp s d)) t := by
  by_cases hrun : running s = some i
  · rw [exec_of_running hrun] at h
    rw [exec_of_running ((running_agree ha).trans hrun)]
    exact microStep_agree ha h
  · rw [exec_of_not_running hrun] at h
    rw [exec_of_not_running (by rwa [running_agree ha])]
    cases h
    exact issue_agree i ha

theorem raiseFault_agree (s : State) (d : Datapath) (c : FaultCause) (n : Nat) :
    Follows (.next (raiseFault (setDp s d) c n)) (raiseFault s c n) :=
  ⟨d, rfl, trivial⟩

/-- A turn that touches neither `STATE` nor the internal registers. -/
theorem follows_of_same (ha : AgreeIn s.fsm s.dp d) (hfsm : t.fsm = s.fsm) (hdp : t.dp = s.dp) :
    Follows (.next (setDp t d)) t :=
  ⟨d, rfl, by rwa [hfsm, hdp]⟩

theorem writeCmd_agree {w : Word} (ha : AgreeIn s.fsm s.dp d) (h : writeCmd s w = .next t) :
    Follows (writeCmd (setDp s d) w) t := by
  obtain ⟨i, hi, hexec⟩ | ⟨v, hv, rfl⟩ := writeCmd_cases h
  · rw [writeCmd_of_instr hi]
    exact exec_agree ha hexec
  · refine follows_of_eq ?_ (raiseFault_agree s d .illegalCmd v.toNat)
    simp only [writeCmd, hv]

theorem storeReg_setDp (offset : Nat) (data : Word) (s : State) (d : Datapath) :
    storeReg offset data (setDp s d) = (storeReg offset data s).map (setDp · d) := by
  unfold storeReg
  split <;> rfl

theorem hostWrite_agree {offset width : Nat} {data : Word} (ha : AgreeIn s.fsm s.dp d)
    (h : hostWrite s offset width data = .next t) :
    Follows (hostWrite (setDp s d) offset width data) t := by
  unfold hostWrite at h ⊢
  simp only [setDp_fault, setDp_busy, storeReg_setDp]
  split_ifs at h ⊢
  · cases h; exact raiseFault_agree s d _ _
  · cases h; exact follows_of_same ha rfl rfl
  · cases h; exact raiseFault_agree s d _ _
  · exact writeCmd_agree ha h
  · cases hst : storeReg offset data s with
    | none => rw [hst] at h; cases h; exact raiseFault_agree s d _ _
    | some u =>
      rw [hst] at h
      cases h
      obtain ⟨_, rfl⟩ | ⟨_, rfl⟩ | ⟨_, rfl⟩ | ⟨_, rfl⟩ | ⟨_, rfl⟩ | ⟨_, rfl⟩ | ⟨_, rfl⟩ :=
        storeReg_cases hst
      all_goals exact follows_of_same ha rfl rfl

theorem hostRead_agree {offset width : Nat} (ha : AgreeIn s.fsm s.dp d)
    (h : hostRead s offset width = .next t) : Follows (hostRead (setDp s d) offset width) t := by
  have hreg : readReg offset (setDp s d) = readReg offset s := by
    unfold readReg
    split <;> rfl
  unfold hostRead at h ⊢
  simp only [hreg]
  split_ifs at h ⊢
  · cases h; exact raiseFault_agree s d _ _
  · cases h; exact follows_of_same (t := { s with readData := _ }) ha rfl rfl

theorem hostStep_agree {x : HostStep} (ha : AgreeIn s.fsm s.dp d)
    (h : hostStep s x = .next t) : Follows (hostStep (setDp s d) x) t := by
  obtain ⟨_, _, _, _, rfl, ho, hwrite⟩ | ⟨_, _, _, rfl, ho, hread⟩ |
    ⟨hb, ⟨_, _, rfl, hlt, rfl⟩ | ⟨_, rfl, hlt, rfl⟩ | ⟨p, rfl, hlen, htec, hbus, rfl⟩ |
      ⟨rfl | rfl, rfl⟩⟩ := hostStep_cases h
  · refine follows_of_eq ?_ (hostWrite_agree ha hwrite)
    simp only [hostStep, setDp_params, ho]
  · refine follows_of_eq ?_ (hostRead_agree ha hread)
    simp only [hostStep, setDp_params, ho]
  all_goals refine follows_of_eq ?_ (follows_of_same ha rfl rfl)
  · simp only [hostStep, setDp_busy, hb]
    exact if_pos hlt
  · simp only [hostStep, setDp_busy, hb]
    exact if_pos hlt
  · simp [hostStep, hb, setDp, hlen, htec, hbus]
  · simp [hostStep, hb]
  · simp [hostStep, hb]

theorem envStep_agree {e : EnvStep} (ha : AgreeIn s.fsm s.dp d) (h : envStep s e = .next t) :
    Follows (envStep (setDp s d) e) t := by
  obtain ⟨_, _, _, _, slot, rfl, hslot, hempty, rfl⟩ | ⟨rfl, hbusy, rfl⟩ | ⟨_, rfl, hv, rfl⟩ |
    ⟨_, rfl, hlaw, rfl⟩ | ⟨_, rfl, hw, rfl⟩ := envStep_cases h
  all_goals refine follows_of_eq ?_ (follows_of_same ha rfl rfl)
  · have hslot' : slotAt (setDp s d) _ = some slot := hslot
    simp only [envStep, hslot', hempty]
    rfl
  · simp [envStep, hbusy, setDp]
  · simp [envStep, hv, setDp]
  · exact if_neg fun hn => hn.2 (hlaw hn.1)
  · have hw' : writeRuns (setDp s d) = false := hw
    simp only [envStep, hw']
    rfl

theorem blockTurn_agree (ha : AgreeIn s.fsm s.dp d) (h : blockTurn s = .next t) :
    Follows (blockTurn (setDp s d)) t := by
  unfold blockTurn at h ⊢
  rw [running_agree ha]
  cases hrun : running s with
  | none => rw [hrun] at h; cases h; exact follows_of_same ha rfl rfl
  | some i => rw [hrun] at h; exact exec_agree ha h

theorem takeTurn_agree {u : Turn} (ha : AgreeIn s.fsm s.dp d) (h : takeTurn s u = .next t) :
    Follows (takeTurn (setDp s d) u) t := by
  cases u with
  | block => exact blockTurn_agree ha h
  | env e => exact envStep_agree ha h
  | host x => exact hostStep_agree ha h
  | reset => cases h; exact ⟨_, rfl, trivial⟩

/-- A step answers the same whatever the registers hold that no rule reads any more. -/
theorem step_agree (ha : AgreeIn s.fsm s.dp d) (h : step s = .next t) :
    Follows (step (setDp s d)) t := by
  obtain ⟨hfits, hturn⟩ := step_cases h
  rw [step_of_fits (s := setDp s d) hfits]
  exact takeTurn_agree (s := popTurn s) ha hturn

/-- So does a run. -/
theorem run_agree (k : Nat) (ha : AgreeIn s.fsm s.dp d) (h : run k s = .next t) :
    ∃ e, run k (setDp s d) = .next { t with dp := e } := by
  induction k generalizing s d with
  | zero => cases h; exact ⟨d, rfl⟩
  | succ k ih =>
    cases hstep : step s with
    | next u =>
      rw [run_succ_of_next hstep] at h
      obtain ⟨e, hstep', hagree⟩ := step_agree ha hstep
      rw [run_succ_of_next hstep']
      exact ih hagree h
    | fault r => rw [run_succ_of_fault hstep] at h; cases h
    | refused r => rw [run_succ_of_refused hstep] at h; cases h

end

/-- Settles O35: the step is `blockReset`, and from an idle block no internal register is read
before it is written (`AgreeIn` asks nothing in `IDLE`). -/
theorem resetLeavesTheResetValues : Obligations.ResetLeavesTheResetValues := by
  refine ⟨fun s rest hfits ha => ?values, fun k s t d hs h => ?unread⟩
  case values =>
    exact ⟨_, step_of_reset hfits ha, fun offset => readReg_blockReset offset _, _, rfl⟩
  case unread =>
    obtain ⟨hfsm, _⟩ := hs
    exact run_agree k (by rw [hfsm]; trivial) h

end Sys2Proof.Machine

/-!
SUPPORT. Commands and their words (30_encoding.md), the fields of `STATUS` (10_state.md rule R22),
and the single moves of host and environment (10_state.md rule R34, 70_reset_and_hazards.md rule
R233): one equation for each, and the statements on them.
-/

namespace Sys2Proof.Machine

open Sys2Proof.Config Sys2Proof.Safety

/-! ## Command words -/

/-- Settles O1: each word is a literal, which `decode` compares with the two of the table. -/
theorem commandWordsDecodeAsTabled : Obligations.CommandWordsDecodeAsTabled := by
  refine ⟨?_, ?_, ?_, ?_, ?_, ?_, ?_, ?_⟩ <;> decide

/-- Settles O2: the round trip is the model's own law, and `decode` answers a command on that
command's word alone. -/
theorem decodeAndEncodeAgree : Obligations.DecodeAndEncodeAgree := by
  refine ⟨fun i => ?roundTrip, fun w i h => ?unique⟩
  case roundTrip =>
    cases i with
    | read => exact Laws.EncodingRoundTrip.read
    | write => exact Laws.EncodingRoundTrip.write
  case unique =>
    unfold decode at h
    split_ifs at h with hr hw
    · cases h; exact hr
    · cases h; exact hw

/-- Settles O4: an idle block starts the command it is given. -/
theorem commandsStartWhenIdle : Obligations.CommandsStartWhenIdle :=
  fun _ hs => ⟨exec_read_of_ready hs, exec_write_of_ready hs⟩

theorem blockTurn_of_running {s : State} {i : Instr} (h : running s = some i) :
    blockTurn s = exec i s := by
  simp only [blockTurn, h]

/-- Settles O5: the `CMD` write and the block's turn both end in `exec`, and the next turn is read
off the agenda, then off the refrain. -/
theorem stepRunsTheDecodedCommand : Obligations.StepRunsTheDecodedCommand := by
  refine ⟨fun s w i hfits hs hu hw => ?write, fun s i hfits hrun hu => ?block,
    fun s u rest => ⟨fun ha => ⟨nextTurn_of_cons ha, popTurn_of_cons ha⟩,
      fun ha hr => ⟨nextTurn_of_refrain ha hr, popTurn_of_refrain ha hr⟩,
      fun ha hr => ⟨nextTurn_of_quiet ha hr, popTurn_of_quiet ha hr⟩⟩⟩
  case write =>
    obtain ⟨_, hbusy, hfault⟩ := hs
    rw [step_of_fits hfits, hu]
    have hoffset : regOffset (popTurn s).params s.params.regBase = some 0 :=
      regOffset_base_add s.params 0
    simp only [takeTurn, cmdWrite, hostStep, hoffset]
    rw [hostWrite_of_cmd (s := popTurn s) rfl hfault hbusy, writeCmd_of_instr hw]
  case block =>
    rw [step_of_fits hfits, hu]
    exact blockTurn_of_running (s := popTurn s) hrun

/-! ## The `STATUS` word (10_state.md rule R22) -/

theorem statusWord_lastOp (s : State) :
    (statusWord s).extractLsb' 8 2 = lastOpCode s.lastOp := by
  apply BitVec.eq_of_toNat_eq
  have hbusy := Bool.toNat_le s.busy
  have hfault := Bool.toNat_le s.fault
  have hecho := Bool.toNat_le s.echoErr
  have hresult := s.result.code.isLt
  have hop := (lastOpCode s.lastOp).isLt
  rw [BitVec.extractLsb'_toNat, statusWord_toNat, Nat.shiftRight_eq_div_pow]
  omega

/-- The reserved fields of the word read as 0. -/
theorem statusWord_reserved (s : State) :
    (statusWord s).extractLsb' 10 6 = 0 ∧ (statusWord s).extractLsb' 21 11 = 0 := by
  have hbusy := Bool.toNat_le s.busy
  have hfault := Bool.toNat_le s.fault
  have hecho := Bool.toNat_le s.echoErr
  have hresult := s.result.code.isLt
  have hop := (lastOpCode s.lastOp).isLt
  have hstate := s.fsm.code.isLt
  constructor
  all_goals
    apply BitVec.eq_of_toNat_eq
    rw [BitVec.extractLsb'_toNat, statusWord_toNat, Nat.shiftRight_eq_div_pow]
    simp only [BitVec.ofNat_eq_ofNat, BitVec.toNat_ofNat]
    omega

/-- A bit of a word, by arithmetic on its value. -/
theorem getLsbD_of_toNat {x : Word} {i : Nat} {b : Bool} (h : x.toNat / 2 ^ i % 2 = b.toNat) :
    x.getLsbD i = b := by
  rw [BitVec.getLsbD, Nat.testBit_eq_decide_div_mod_eq, h]
  cases b <;> rfl

/-- The flags are the three low bits, and bits 3 and 7 are reserved. -/
theorem statusWord_bits (s : State) :
    (statusWord s).getLsbD 0 = s.busy ∧ (statusWord s).getLsbD 1 = s.fault ∧
    (statusWord s).getLsbD 2 = s.echoErr ∧ (statusWord s).getLsbD 3 = false ∧
    (statusWord s).getLsbD 7 = false := by
  have hbusy := Bool.toNat_le s.busy
  have hfault := Bool.toNat_le s.fault
  have hecho := Bool.toNat_le s.echoErr
  have hresult := s.result.code.isLt
  have hzero := Bool.toNat_false
  refine ⟨?_, ?_, ?_, ?_, ?_⟩
  all_goals
    refine getLsbD_of_toNat ?_
    rw [statusWord_toNat]
    omega

/-- Settles O8: the bits and the fields of the word, one lemma each. -/
theorem statusWordHoldsItsFields : Obligations.StatusWordHoldsItsFields := by
  intro s
  rw [readReg_status]
  obtain ⟨hbusy, hfault, hecho, hthree, hseven⟩ := statusWord_bits s
  obtain ⟨hlow, hhigh⟩ := statusWord_reserved s
  exact ⟨hbusy, hfault, hecho, hthree, statusWord_result s, hseven, statusWord_lastOp s, hlow,
    statusWord_state s, hhigh⟩

/-! ## The echo's start and the return of a WRITE -/

/-- Settles O19: both operands fit their registers, so the nested WRITE gets them uncut. -/
theorem rxEchoSetsUpTheNestedWrite : Obligations.RxEchoSetsUpTheNestedWrite := by
  intro s hfsm hlen hbase
  have hexec : exec .read s = rxEcho s := by
    simp only [exec_of_running, running, microStep, hfsm]
  rw [hexec, rxEcho, cut_of_lt hlen, bufAddr, cut_of_lt hbase]
  rfl

/-- Settles O30: a host WRITE ends; of the results an echo drops only `OK` and `EMPTY` are no
failure. -/
theorem writeReturnsToItsCaller : Obligations.WriteReturnsToItsCaller := by
  intro s r n hr hn
  refine ⟨fun hhost => ?host, fun hecho hgood => ?good, fun hecho hok hempty => ?bad⟩
  case host => rw [txReturn_host s r n hhost, finish_of_fits hn]
  case good =>
    rw [txReturn_rx s r n hecho]
    obtain rfl | rfl := hgood <;> simp [echoFails]
  case bad =>
    rw [txReturn_rx s r n hecho]
    cases r <;> simp [echoFails] at hr hok hempty ⊢

/-- Settles O34: the two cases of rule R206. -/
theorem faultEntryKeepsTheFirstCause : Obligations.FaultEntryKeepsTheFirstCause :=
  fun _ c n => ⟨fun hf => raiseFault_of_unfaulted hf c n, fun hf => raiseFault_of_faulted hf c n⟩

/-! ## The environment's moves (10_state.md rule R34) -/

section
variable {s : State} {rest : List Turn}

theorem step_of_env {e : EnvStep} (hfits : fits s = true) (ha : s.agenda = .env e :: rest) :
    step s = envStep { s with agenda := rest } e := step_of_cons hfits ha

theorem step_of_host {x : HostStep} (hfits : fits s = true) (ha : s.agenda = .host x :: rest) :
    step s = hostStep { s with agenda := rest } x := step_of_cons hfits ha

theorem slots_length_of_fits (hfits : fits s = true) :
    s.periph.slots.length = s.params.nRx := by
  simp only [fits, Bool.and_eq_true, beq_iff_eq] at hfits
  exact hfits.2

theorem envStep_arrive_missing {i : Nat} (h : slotAt s i = none) (id : FrameId) (len : FrameLen)
    (lanes : Lanes) : envStep s (.arrive i id len lanes) = .refused .environmentLaw := by
  simp only [envStep, h]

theorem envStep_arrive {i : Nat} {slot : RxSlot} (h : slotAt s i = some slot) (id : FrameId)
    (len : FrameLen) (lanes : Lanes) :
    (slot.full = true → envStep s (.arrive i id len lanes) = .refused .environmentLaw) ∧
    (slot.full = false → envStep s (.arrive i id len lanes) = .next
      { s with periph := { s.periph with
        slots := s.periph.slots.set i ⟨true, id, len, lanes⟩ } }) := by
  constructor
  all_goals
    intro hfull
    simp [envStep, h, hfull]

end

/-- Settles O36: each move of the agenda is `envStep`, whose test is its law. -/
theorem environmentMovesAsItsLawsAllow : Obligations.EnvironmentMovesAsItsLawsAllow := by
  intro s rest hfits
  refine ⟨fun i id len lanes ha hi => ?missing, fun i id len lanes slot ha hslot => ?arrive,
    fun ha => ?free, fun v ha => ?tec, fun b ha => ?bus, fun ok ha => ?slotType⟩
  all_goals rw [step_of_env hfits ha]
  case missing =>
    refine envStep_arrive_missing ?_ id len lanes
    exact List.getElem?_eq_none ((slots_length_of_fits hfits).trans_le hi)
  case arrive => exact envStep_arrive (s := { s with agenda := rest }) hslot id len lanes
  case free =>
    exact ⟨fun hfree => if_neg (by simp [hfree]), fun hbusy => if_pos hbusy⟩
  case tec => exact ⟨fun hv => if_pos hv, fun hv => if_neg hv.not_gt⟩
  case bus =>
    refine ⟨fun h => if_neg fun hn => ?_, fun hoff hb => if_pos ⟨hoff, hb⟩⟩
    exact h.elim (fun h => h hn.1) (fun h => hn.2 h)
  case slotType =>
    refine ⟨fun hw => if_pos hw, fun hw => if_neg ?_⟩
    exact Bool.eq_false_iff.1 hw

/-! ## The host's moves beside the register port -/

/-- Settles O40: each lifecycle call is `hostStep`, whose tests are the host's duty and the
environment's laws. -/
theorem peripheralResetKeepsTheBlock : Obligations.PeripheralResetKeepsTheBlock := by
  intro s rest hfits
  refine ⟨fun p ha => ?reset, ?lifecycle⟩
  case reset =>
    rw [step_of_host hfits ha]
    refine ⟨fun hb => if_pos hb, fun hb hlen htec hbus => ?_, fun hb hbus => ?_⟩
    · exact (if_neg (Bool.eq_false_iff.1 hb)).trans (if_pos ⟨hlen, htec, hbus⟩)
    · exact (if_neg (Bool.eq_false_iff.1 hb)).trans (if_neg fun hp => hp.2.2 hbus)
  case lifecycle =>
    rintro (ha | ha)
    all_goals
      rw [step_of_host hfits ha]
      exact ⟨fun hb => if_pos hb, fun hb => if_neg (Bool.eq_false_iff.1 hb)⟩

/-- Settles O41: the duty is tested first, then the address; the write is `Memory.write`. -/
theorem hostTouchesTheBufferWhileIdle : Obligations.HostTouchesTheBufferWhileIdle := by
  intro s rest a v hfits hwf
  refine ⟨fun hb ha => ?busy, fun hb hlt => ⟨fun ha => ?read, fun ha => ?write⟩⟩
  case busy =>
    obtain ha | ha := ha
    all_goals
      rw [step_of_host hfits ha]
      exact if_pos hb
  case read =>
    rw [step_of_host hfits ha]
    exact (if_neg (Bool.eq_false_iff.1 hb)).trans (if_pos hlt)
  case write =>
    rw [step_of_host hfits ha]
    refine ⟨_, (if_neg (Bool.eq_false_iff.1 hb)).trans (if_pos hlt), write_wf _ _ _ hwf,
      fun x => ?_⟩
    split
    next hx =>
      rw [hx]
      exact read_write_same _ _ _ hwf
    next hx =>
      exact read_write_other _ _ _ _ hx

/-! ## Reset -/

/-- Settles O42: `State.reset` is one state, on which both invariants are decided. -/
theorem resetStateIsConsistent : Obligations.ResetStateIsConsistent := by
  exact ⟨by decide, by decide⟩

end Sys2Proof.Machine

/-!
SUPPORT. The correction of the byte swap under law E6 (42_datapath.md section 1), and the WRITEs that
send nothing: the empty one (40_transmit.md rule R121), and the one whose slot never frees
(40_transmit.md section 4).
-/

namespace Sys2Proof.Machine

open Sys2Proof.Config Sys2Proof.Safety

/-! ## The swap unit (42_datapath.md rules R170 to R172) -/

theorem swap_swap (k : Nat) : swap (swap k) = k := by
  unfold swap
  omega

/-- On whole groups the two readings of a frame's lanes are one. -/
theorem laneIndex_of_whole_groups {p q : Params} (hp : p.swapPartial = .fixedLanes)
    (hq : q.swapPartial = .presentOnly) {len k : Nat} (hlen : len = 0 ∨ len = 4 ∨ len = 8)
    (hk : k < len) : laneIndex p len k = laneIndex q len k := by
  rw [laneIndex_of_fixedLanes hp, laneIndex_of_presentOnly hq]
  omega

/-- Under law E6 the corrected byte is the wire's (41_receive.md section 4, property P1). -/
theorem payloadByte_of_laneLaw {p : Params} {lanes : Lanes} {w : List Byte}
    (hp : p.swapPartial = .fixedLanes) (hlaw : laneLaw lanes w) {k : Nat} (hk : k < w.length) :
    payloadByte p lanes w.length k = w[k] := by
  obtain ⟨_, hlanes⟩ := hlaw
  have hlane := hlanes k hk
  rw [swap, ← laneIndex_of_fixedLanes hp w.length k] at hlane
  rw [payloadByte, hlane, List.getElem?_eq_getElem hk, Option.getD_some]

/-- Settles O51: arithmetic of the lane map, of the two readings on whole groups, and law E6 byte by
byte. -/
theorem swapUndoesTheLaneLaw : Obligations.SwapUndoesTheLaneLaw := by
  refine ⟨fun k => ⟨swap_swap k, ?four, ?eight⟩, fun p q lanes len k hp hq hlen hk => ?readings,
    fun p lanes w hp hlaw => ?wire⟩
  case four => unfold swap; omega
  case eight => unfold swap; omega
  case readings =>
    simp only [payloadByte, laneIndex_of_whole_groups hp hq hlen hk]
  case wire =>
    refine List.ext_getElem (by simp) fun k _ hk => ?_
    rw [List.getElem_map, List.getElem_range]
    exact payloadByte_of_laneLaw hp hlaw hk

/-! ## Runs of one command -/

section
variable {s t u : State}

theorem run_one (h : step s = .next t) : run 1 s = .next t := by
  rw [run_succ_of_next h]
  rfl

/-- A step before a run. -/
theorem run_cons {k : Nat} (h : step s = .next t) (hrun : run k t = .next u) :
    run (k + 1) s = .next u := (run_succ_of_next h).trans hrun

/-- A run before a run. -/
theorem run_append {j k : Nat} (h : run j s = .next t) (hrun : run k t = .next u) :
    run (j + k) s = .next u := by
  induction j generalizing s with
  | zero => cases h; rwa [Nat.zero_add]
  | succ j ih =>
    rw [Nat.succ_add]
    cases hstep : step s with
    | next v => exact run_cons hstep (ih ((run_succ_of_next hstep).symm.trans h))
    | fault r => rw [run_succ_of_fault hstep] at h; cases h
    | refused r => rw [run_succ_of_refused hstep] at h; cases h

theorem step_startRead {rest : List Turn} (hfits : fits s = true) (hs : ready s)
    (ha : s.agenda = cmdWrite s.params readWord :: rest) :
    step s = .next (startRead { s with agenda := rest }) := by
  rw [step_of_cmdWrite hfits hs ha, writeCmd_of_instr decode_readWord]
  exact exec_read_of_ready hs

theorem step_startWrite {rest : List Turn} (hfits : fits s = true) (hs : ready s)
    (ha : s.agenda = cmdWrite s.params writeWord :: rest) :
    step s = .next (startWrite { s with agenda := rest }) := by
  rw [step_of_cmdWrite hfits hs ha, writeCmd_of_instr decode_writeWord]
  exact exec_write_of_ready hs

/-- The block's turn on the agenda while a command runs. -/
theorem step_of_block {i : Instr} {rest : List Turn} (hfits : fits s = true)
    (hrun : running s = some i) (ha : s.agenda = .block :: rest) :
    step s = microStep { s with agenda := rest } := by
  rw [step_of_cons hfits ha]
  have hrun' : running { s with agenda := rest } = some i := hrun
  exact (blockTurn_of_running hrun').trans (exec_of_running hrun')

/-- With nothing on the agenda nor on the refrain the block moves. -/
theorem step_of_quiet_running {i : Instr} (hfits : fits s = true) (hrun : running s = some i)
    (ha : s.agenda = []) (hr : s.refrain = []) : step s = microStep s := by
  rw [step_of_quiet hfits ha hr, blockTurn_of_running hrun, exec_of_running hrun]

end

/-- Settles O55: the start latches the size 0, which `TX_START` returns at once. -/
theorem emptyWriteEndsAtOnce : Obligations.EmptyWriteEndsAtOnce := by
  intro s rest hfits hs hsize hslot hempty ha
  have hstart := step_startWrite hfits hs ha
  obtain ⟨_, _, hfault⟩ := hs
  have hresult : emptyResult s.params = .empty := by rw [emptyResult, hempty]
  have hblock := calc
    step (startWrite { s with agenda := .block :: rest })
      = microStep (startWrite { s with agenda := rest }) :=
        step_of_block (s := startWrite { s with agenda := .block :: rest }) (i := .write) hfits rfl
          rfl
    _ = txStart (startWrite { s with agenda := rest }) := microStep_of_txStart rfl
    _ = .next (txReturn (startWrite { s with agenda := rest }) (emptyResult s.params) 0) :=
        txStart_of_empty hslot hsize
    _ = .next (finish (startWrite { s with agenda := rest }) .empty 0) := by
        rw [hresult, txReturn_host _ _ _ rfl]
  exact ⟨_, run_cons hstart (run_one hblock), ⟨rfl, rfl, hfault⟩, rfl, Nat.zero_mod _, rfl, rfl, rfl,
    rfl, rfl⟩

/-! ## A WRITE that waits for its slot -/

section
variable {s t : State}

/-- A host WRITE before its first chunk, on a busy slot with a quiet environment. -/
structure WaitingForSlot (s : State) : Prop where
  fits : fits s = true
  agenda : s.agenda = []
  refrain : s.refrain = []
  fsm : s.fsm = .txWaitFree
  fault : s.fault = false
  txRet : s.dp.txRet = .host
  txOff : s.dp.txOff = 0
  slotBusy : s.periph.tx.busy = true

theorem WaitingForSlot.step (h : WaitingForSlot s) : step s = txWaitFree s := by
  have hw : writeRuns s = true := by simp [writeRuns, h.fsm]
  rw [step_of_quiet_running h.fits (running_of_host hw h.txRet) h.agenda h.refrain,
    microStep_of_txWaitFree h.fsm]

/-- What the end of such a WRITE after `n` checks of the slot leaves. -/
structure TimedOutWrite (s t : State) (n : Nat) : Prop where
  ready : ready t
  result : t.result = .timeout
  countReg : t.countReg = 0
  checks : txFullCalls t = txFullCalls s + n
  delays : delays t = delays s + if s.dp.txTimeout = 0 then 0 else n
  sent : sentFrames t = sentFrames s
  mem : t.mem = s.mem
  cursor : t.cursor = s.cursor

/-- One check of a busy slot is one polling wait. -/
theorem step_of_waiting (h : WaitingForSlot s) (hbudget : 0 ≤ s.dp.txBudget) :
    step s = .next (txWait (logCall s .txFull)) := by
  rw [h.step, txWaitFree_of_busy hbudget h.slotBusy]

theorem WaitingForSlot.next (h : WaitingForSlot s) :
    WaitingForSlot (txWait (logCall s .txFull)) := by
  rw [txWait_eq]
  exact { h with }

/-- The calls of one polling wait: a `txFull`, and a `Delay` unless the timeout is 0. -/
theorem txWait_counts (s : State) :
    txFullCalls (txWait (logCall s .txFull)) = txFullCalls s + 1 ∧
    delays (txWait (logCall s .txFull)) = delays s + (if s.dp.txTimeout = 0 then 0 else 1) ∧
    sentFrames (txWait (logCall s .txFull)) = sentFrames s := by
  rw [txWait_eq]
  by_cases ht : s.dp.txTimeout = 0
  all_goals
    simp [txFullCalls, delays, sentFrames, ht, List.countP_cons, List.filterMap_cons,
      Call.isTxFull, Call.isDelay, Call.sent]

/-- The budget pays for `n` waits, and the next look at it ends the WRITE (40_transmit.md section
4). -/
theorem waiting_times_out (n : Nat) (h : WaitingForSlot s)
    (hlow : s.dp.txBudget < n * s.params.pollStep)
    (hhigh : n * s.params.pollStep ≤ s.dp.txBudget + s.params.pollStep) :
    ∃ t, run (n + 1) s = .next t ∧ TimedOutWrite s t n := by
  induction n generalizing s with
  | zero =>
    have hspent : s.dp.txBudget < 0 := by omega
    have hstep := h.step
    rw [txWaitFree_of_spent hspent, txReturn_host _ _ _ h.txRet, h.txOff] at hstep
    refine ⟨_, run_one hstep, ⟨rfl, rfl, h.fault⟩, rfl, Nat.zero_mod _, rfl, ?_, rfl, rfl, rfl⟩
    rw [ite_self]
    rfl
  | succ n ih =>
    have hmul : ((n + 1 : Nat) : Int) * s.params.pollStep =
        n * s.params.pollStep + s.params.pollStep := by
      push_cast
      ring
    have hn : (0 : Int) ≤ n * s.params.pollStep := by positivity
    have hbudget : 0 ≤ s.dp.txBudget := by omega
    have hwait := txWait_eq (logCall s .txFull)
    obtain ⟨t, hrun, ht⟩ := ih h.next
      (by rw [hwait]; simp only [spend, logCall_dp, logCall_params]; omega)
      (by rw [hwait]; simp only [spend, logCall_dp, logCall_params]; omega)
    obtain ⟨hchecks, hdelays, hsent⟩ := txWait_counts s
    refine ⟨t, run_cons (step_of_waiting h hbudget) hrun, ht.ready, ht.result, ht.countReg, ?_, ?_,
      ht.sent.trans hsent, ?_, ?_⟩
    · rw [ht.checks, hchecks]
      omega
    · rw [ht.delays, hdelays, hwait]
      by_cases hz : s.dp.txTimeout = 0
      · simp only [logCall_dp, hz, if_true]
      · simp only [logCall_dp, hz, if_false]
        omega
    · rw [ht.mem, hwait, logCall_mem]
    · rw [ht.cursor, hwait, logCall_cursor]

end

/-- The number of polling waits a budget pays for, `floor(B / POLL_STEP) + 1`. -/
theorem waits_of_budget (b : Nat) {p : Nat} (hp : 1 ≤ p) :
    (b : Int) < ((b / p + 1 : Nat) : Int) * p ∧ ((b / p + 1 : Nat) : Int) * p ≤ (b : Int) + p := by
  have hdiv : p * (b / p) + b % p = b := Nat.div_add_mod b p
  have hmod : b % p < p := Nat.mod_lt b hp
  have hmul : (b / p + 1) * p = p * (b / p) + p := by ring
  rw [← Nat.cast_mul, hmul]
  omega

/-- A host WRITE whose `TX_START` found its operands right. -/
def writeWaiting (s : State) : State :=
  goto
    (setDp (startWrite s)
      { (startWrite s).dp with txBudget := initialBudget s.timeout, txOff := 0 })
    .txWaitFree

/-- `TX_START` of a host WRITE whose buffer lies in the buffer memory. -/
theorem txStart_of_startWrite {s : State} (hslot : s.slotTypeOk = true) (hsize : 0 < s.bufSize)
    (hin : s.bufBase + s.bufSize ≤ spaceEnd s) :
    microStep (startWrite s) = .next (writeWaiting s) :=
  (microStep_of_txStart rfl).trans (txStart_of_inside (s := startWrite s) hslot hsize hin)

/-- Settles O56: the `CMD` write, `TX_START`, the waits the budget pays for, and the look that finds
it spent. -/
theorem writeTimesOutOnABusySlot : Obligations.WriteTimesOutOnABusySlot := by
  intro s hfits hs hslot hsize hin hbusy ha hr
  have hstart := step_startWrite hfits hs ha
  obtain ⟨_, _, hfault⟩ := hs
  have hpoll := one_le_pollStep hfits
  have hblock : step (startWrite { s with agenda := [] }) =
      .next (writeWaiting { s with agenda := [] }) :=
    (step_of_quiet_running (s := startWrite { s with agenda := [] }) (i := .write) hfits rfl rfl
      hr).trans (txStart_of_startWrite (s := { s with agenda := [] }) hslot hsize hin)
  have hwaiting : WaitingForSlot (writeWaiting { s with agenda := [] }) :=
    ⟨hfits, rfl, hr, rfl, hfault, rfl, rfl, hbusy⟩
  obtain ⟨hlow, hhigh⟩ := waits_of_budget (10 * s.timeout) hpoll
  obtain ⟨t, hrun, ht⟩ :=
    waiting_times_out (10 * s.timeout / s.params.pollStep + 1) hwaiting hlow hhigh
  exact ⟨t, run_cons hstart (run_cons hblock hrun), ht.ready, ht.result, ht.countReg, ht.checks,
    ht.delays, ht.sent, ht.mem, ht.cursor⟩

end Sys2Proof.Machine

/-!
SUPPORT. The READ that meets no frame (41_receive.md section 4, property P7): each pass over the empty
slots costs one `Delay`, and the budget pays for a fixed number of passes.
-/

namespace Sys2Proof.Machine

open Sys2Proof.Config Sys2Proof.Safety

/-- Some run leads from `s` to `t`. -/
def Reaches (s t : State) : Prop := ∃ k, run k s = .next t

section
variable {s t u : State}

theorem Reaches.refl (s : State) : Reaches s s := ⟨0, rfl⟩

theorem Reaches.trans (h : Reaches s t) (h' : Reaches t u) : Reaches s u := by
  obtain ⟨j, hj⟩ := h
  obtain ⟨k, hk⟩ := h'
  exact ⟨j + k, run_append hj hk⟩

theorem reaches_of_step (h : step s = .next t) : Reaches s t := ⟨1, run_one h⟩

/-! ## A scan without traffic -/

/-- A READ that has received nothing, with empty slots, a usable bus and a quiet environment. -/
structure QuietScan (s : State) : Prop where
  fits : fits s = true
  agenda : s.agenda = []
  refrain : s.refrain = []
  fault : s.fault = false
  count : s.dp.count = 0
  produced : s.dp.produced = 0
  incomplete : complete s 0 = some false
  empty : ∀ slot ∈ s.periph.slots, slot.full = false
  bus : s.periph.bus ≠ .busOff
  cursor : s.cursor ≤ s.params.nRx

/-- From `s` to `t` there were `n` idle passes, and nothing else happened to budget, peripheral and
`Delay` calls. -/
structure IdlePasses (s t : State) (n : Nat) : Prop where
  params : t.params = s.params
  periph : t.periph = s.periph
  budget : t.dp.rxBudget = s.dp.rxBudget - n * s.params.pollStep
  delays : delays t = delays s + n

theorem IdlePasses.trans {m n : Nat} (h : IdlePasses s t m) (h' : IdlePasses t u n) :
    IdlePasses s u (m + n) := by
  refine ⟨h'.params.trans h.params, h'.periph.trans h.periph, ?_, ?_⟩
  · rw [h'.budget, h.budget, h.params]
    push_cast
    ring
  · rw [h'.delays, h.delays, Nat.add_assoc]

theorem QuietScan.step (h : QuietScan s) (hrun : running s = some .read) :
    step s = microStep s :=
  step_of_quiet_running h.fits hrun h.agenda h.refrain

/-- An empty slot is examined and passed in two micro-steps. -/
theorem pass_empty_slot (h : QuietScan s) (hf : s.fsm = .rxBus) (hc : s.cursor < s.params.nRx) :
    ∃ t, Reaches s t ∧ QuietScan t ∧ t.fsm = .rxBus ∧ t.cursor = s.cursor + 1 ∧
      IdlePasses s t 0 := by
  obtain ⟨slot, hslot⟩ := slot_of_lt h.fits hc
  have hempty : slot.full = false := h.empty slot (List.mem_of_getElem? hslot)
  have hbus : step s = .next (goto (logCall s .busState) .rxTest) := by
    rw [h.step (by simp [running, hf])]
    simp only [microStep, hf]
    exact rxBus_of_not_busOff hc h.bus
  have hat : QuietScan (goto (logCall s .busState) .rxTest) := { h with }
  have htest := (hat.step rfl).trans (rxTest_of_empty (s := goto (logCall s .busState) .rxTest)
    hslot hempty)
  rw [setCursor_of_le] at htest
  · refine ⟨_, (reaches_of_step hbus).trans (reaches_of_step htest), { h with cursor := hc }, rfl,
      rfl, rfl, rfl, ?_, rfl⟩
    simp
  · exact hc

/-- The rest of a pass: every slot from the cursor on is passed. -/
theorem pass_empty_slots (n : Nat) (h : QuietScan s) (hf : s.fsm = .rxBus)
    (hn : s.cursor + n = s.params.nRx) :
    ∃ t, Reaches s t ∧ QuietScan t ∧ t.fsm = .rxBus ∧ t.cursor = t.params.nRx ∧
      IdlePasses s t 0 := by
  induction n generalizing s with
  | zero => exact ⟨s, .refl s, h, hf, hn, rfl, rfl, by simp, rfl⟩
  | succ n ih =>
    obtain ⟨t, hreach, ht, htf, htc, hidle⟩ := pass_empty_slot h hf (by omega)
    obtain ⟨u, hreach', hu, huf, huc, hidle'⟩ := ih ht htf (by rw [htc, hidle.params]; omega)
    exact ⟨u, hreach.trans hreach', hu, huf, huc, hidle.trans hidle'⟩

/-- The end of an idle pass costs one `Delay` and one step of the budget (rule R152). -/
theorem end_idle_pass (h : QuietScan s) (hf : s.fsm = .rxBus) (hc : s.cursor = s.params.nRx) :
    ∃ t, Reaches s t ∧ QuietScan t ∧ t.fsm = .rxPassTop ∧ t.cursor = t.params.nRx ∧
      IdlePasses s t 1 := by
  have hover : step s = .next (goto s .rxPassEnd) := by
    rw [h.step (by simp [running, hf])]
    simp only [microStep, hf]
    exact rxBus_of_passOver hc.ge
  have hat : QuietScan (goto s .rxPassEnd) := { h with }
  have hend := (hat.step rfl).trans (rxPassEnd_of_idle (s := goto s .rxPassEnd) h.produced)
  refine ⟨_, (reaches_of_step hover).trans (reaches_of_step hend), { h with }, rfl, hc, rfl, rfl, ?_,
    ?_⟩
  · simp [spend]
  · simp [Safety.delays, List.countP_cons, Call.isDelay]

/-- The top of a pass wraps the cursor if it stands at the end (rule R144). -/
theorem begin_pass (h : QuietScan s) (hf : s.fsm = .rxPassTop) (hbudget : 0 ≤ s.dp.rxBudget) :
    ∃ t, Reaches s t ∧ QuietScan t ∧ t.fsm = .rxBus ∧ IdlePasses s t 0 := by
  have hstep : step s = rxPassTop s := by
    rw [h.step (by simp [running, hf])]
    simp only [microStep, hf]
  by_cases hc : s.cursor < s.params.nRx
  · rw [rxPassTop_of_lt hbudget hc] at hstep
    exact ⟨_, reaches_of_step hstep, { h with }, rfl, rfl, rfl, by simp, rfl⟩
  · rw [rxPassTop_of_wrap hbudget (not_lt.1 hc), setCursor_of_le (Nat.zero_le _)] at hstep
    exact ⟨_, reaches_of_step hstep, { h with produced := rfl, cursor := Nat.zero_le _ }, rfl, rfl,
      rfl, by simp, rfl⟩

/-- A whole pass, from its top to the next. -/
theorem idle_pass (h : QuietScan s) (hf : s.fsm = .rxPassTop) (hbudget : 0 ≤ s.dp.rxBudget) :
    ∃ t, Reaches s t ∧ QuietScan t ∧ t.fsm = .rxPassTop ∧ t.cursor = t.params.nRx ∧
      IdlePasses s t 1 := by
  obtain ⟨t, htop, ht, htf, hidle⟩ := begin_pass h hf hbudget
  obtain ⟨u, hslots, hu, huf, huc, hidle'⟩ :=
    pass_empty_slots (t.params.nRx - t.cursor) ht htf (Nat.add_sub_of_le ht.cursor)
  obtain ⟨v, hend, hv, hvf, hvc, hidle''⟩ := end_idle_pass hu huf huc
  exact ⟨v, (htop.trans hslots).trans hend, hv, hvf, hvc, (hidle.trans hidle').trans hidle''⟩

/-- The budget pays for `n` passes, and the last check finds no packet (rule R153). -/
theorem idle_passes_time_out (n : Nat) (h : QuietScan s) (hf : s.fsm = .rxPassTop)
    (hlow : s.dp.rxBudget < n * s.params.pollStep)
    (hhigh : n * s.params.pollStep ≤ s.dp.rxBudget + s.params.pollStep)
    (hlast : n = 0 → s.cursor = s.params.nRx) :
    ∃ t, Reaches s t ∧ ready t ∧ t.result = .timeout ∧ t.countReg = 0 ∧
      t.cursor = s.params.nRx ∧ delays t = delays s + n ∧ t.periph = s.periph := by
  induction n generalizing s with
  | zero =>
    have htop : step s = .next (goto s .rxFinal) := by
      rw [h.step (by simp [running, hf])]
      simp only [microStep, hf]
      exact rxPassTop_of_spent (by omega)
    have hat : QuietScan (goto s .rxFinal) := { h with }
    have hcount : complete (goto s .rxFinal) (goto s .rxFinal).dp.count = some false := by
      rw [goto_dp, h.count]
      exact h.incomplete
    have hfinal := (hat.step rfl).trans (rxFinal_of_incomplete hcount)
    refine ⟨_, (reaches_of_step htop).trans (reaches_of_step hfinal), ⟨rfl, rfl, h.fault⟩, rfl, ?_,
      hlast rfl, rfl, rfl⟩
    rw [finish_countReg, goto_dp, h.count]
    exact Nat.zero_mod _
  | succ n ih =>
    have hmul : ((n + 1 : Nat) : Int) * s.params.pollStep =
        n * s.params.pollStep + s.params.pollStep := by
      push_cast
      ring
    have hn : (0 : Int) ≤ n * s.params.pollStep := by positivity
    obtain ⟨t, hreach, ht, htf, htc, hpass⟩ := idle_pass h hf (by omega)
    obtain ⟨u, hreach', hready, hresult, hcount, hcursor, hdelays, hperiph⟩ :=
      ih ht htf (by rw [hpass.params, hpass.budget]; push_cast; omega)
        (by rw [hpass.params, hpass.budget]; push_cast; omega) (fun _ => htc)
    refine ⟨u, hreach.trans hreach', hready, hresult, hcount, by rw [hcursor, hpass.params], ?_,
      hperiph.trans hpass.periph⟩
    rw [hdelays, hpass.delays]
    omega

end

/-! ## The start of a READ -/

/-- A READ whose buffer is right, before its clear (rule R141). -/
def readClearing (s : State) : State :=
  goto
    (setDp (startRead s)
      { s.dp with count := 0, produced := 0, rxBudget := initialBudget s.timeout })
    .rxClear

/-- The same READ at the top of its first pass (rule R142). -/
def readScanning (s : State) : State :=
  goto { readClearing s with mem := Memory.fill s.mem s.bufBase 0x00 s.bufSize } .rxPassTop

/-- The `CMD` write, `RX_START` and `RX_CLEAR`, three steps in a quiet environment. -/
theorem run_readScanning {s : State} (hfits : fits s = true) (hs : ready s) (hmin : 8 ≤ s.bufSize)
    (hin : s.bufBase + s.bufSize ≤ 2 ^ s.params.addrW)
    (ha : s.agenda = [cmdWrite s.params readWord]) (hr : s.refrain = []) :
    run 3 s = .next (readScanning { s with agenda := [] }) := by
  have hcmd := step_startRead hfits hs ha
  have hstart : step (startRead { s with agenda := [] }) =
      .next (readClearing { s with agenda := [] }) :=
    (step_of_quiet_running (s := startRead { s with agenda := [] }) (i := .read) hfits rfl rfl
      hr).trans (rxStart_of_inside (s := startRead { s with agenda := [] }) hmin hin)
  have hclear : step (readClearing { s with agenda := [] }) =
      .next (readScanning { s with agenda := [] }) :=
    (step_of_quiet_running (s := readClearing { s with agenda := [] }) (i := .read) hfits rfl rfl
      hr).trans
      (rxClear_of_inSpace (s := readClearing { s with agenda := [] }) (inSpace_of_le hin))
  exact run_cons hcmd (run_cons hstart (run_one hclear))

/-- Settles O57: the start, then as many idle passes as the budget pays for. -/
theorem readTimesOutWithoutTraffic : Obligations.ReadTimesOutWithoutTraffic := by
  intro s hfits hs hmin _ hin hc hbus hempty ha hr
  have hstart := run_readScanning hfits hs hmin hin ha hr
  have ⟨_, _, hfault⟩ := hs
  have hlen : bufAddr (readScanning { s with agenda := [] }) 3 <
      spaceEnd (readScanning { s with agenda := [] }) := by
    show s.bufBase + 3 < 2 ^ s.params.addrW
    omega
  have hscan : QuietScan (readScanning { s with agenda := [] }) :=
    ⟨hfits, rfl, hr, hfault, rfl, rfl, complete_below_seven hlen (by decide), hempty, hbus, hc⟩
  obtain ⟨hlow, hhigh⟩ := waits_of_budget (10 * s.timeout) (one_le_pollStep hfits)
  obtain ⟨t, hreach, hready, hresult, hcount, hcursor, hdelays, hperiph⟩ :=
    idle_passes_time_out (10 * s.timeout / s.params.pollStep + 1) hscan rfl hlow hhigh nofun
  obtain ⟨k, hrun⟩ := Reaches.trans ⟨3, hstart⟩ hreach
  exact ⟨k, t, hrun, hready, hresult, hcount, hcursor, hdelays, hperiph⟩

end Sys2Proof.Machine

/-!
SUPPORT. The WRITE whose slot frees after each trigger (40_transmit.md rules R120 and R122): one chunk
takes five turns, and the chunks follow one another through the buffer.
-/

namespace Sys2Proof.Machine

open Sys2Proof.Config Sys2Proof.Safety

/-- What is sent of a loaded chunk is what the memory holds there. -/
theorem loadInto_take_eq_bytesAt (m : Memory) (base : Nat) (old : Lanes) {n : Nat} (hn : n ≤ 8) :
    (Memory.loadInto m base old n).toList.take n = bytesAt m base n := by
  refine List.ext_getElem (by simp [bytesAt, hn]) fun j hj _ => ?_
  have hjn : j < n := by simp at hj; omega
  simp only [List.getElem_take, Vector.getElem_toList, bytesAt, List.getElem_map,
    List.getElem_range]
  rw [loadInto_get m base old n j (by omega), if_pos hjn]

/-- An error counter that did not move fails no frame (rule R127). -/
theorem tecFail_self (p : Params) (e : Nat) : tecFail p e e = false := by
  cases h : p.tecFailOn <;> simp [tecFail, h]

section
variable {s t : State} {rest : List Turn}

/-- A host WRITE with chunk `k` to send and `n` chunks left, on a free slot, its environment prompt. -/
structure SendingChunks (s : State) (rest : List Turn) (k n : Nat) : Prop where
  fits : fits s = true
  agenda : s.agenda = promptTurns n ++ .block :: rest
  fsm : s.fsm = if n = 0 then .txFinal else .txLoad
  fault : s.fault = false
  txRet : s.dp.txRet = .host
  budget : 0 ≤ s.dp.txBudget
  slotFree : s.periph.tx.busy = false
  bus : s.periph.bus = .active
  txOff : n ≠ 0 → s.dp.txOff = 8 * k
  left : k + n = chunkCount s.dp.txSize
  txSize : s.dp.txSize < 2 ^ s.params.sizeW
  inSpace : s.dp.txBase + s.dp.txSize ≤ spaceEnd s

/-- From `s` to `t` the frames `fs` were sent, and neither memory nor cursor nor the operands of the
WRITE changed. -/
structure Sent (s t : State) (fs : List (FrameId × FrameLen × List Byte)) : Prop where
  sent : sentFrames t = sentFrames s ++ fs
  mem : t.mem = s.mem
  cursor : t.cursor = s.cursor
  txId : t.txId = s.txId
  txBase : t.dp.txBase = s.dp.txBase
  txSize : t.dp.txSize = s.dp.txSize

theorem Sent.trans {u : State} {fs gs : List (FrameId × FrameLen × List Byte)} (h : Sent s t fs)
    (h' : Sent t u gs) : Sent s u (fs ++ gs) :=
  ⟨by rw [h'.sent, h.sent, List.append_assoc], h'.mem.trans h.mem, h'.cursor.trans h.cursor,
    h'.txId.trans h.txId, h'.txBase.trans h.txBase, h'.txSize.trans h.txSize⟩

/-! ## The five turns of one chunk -/

/-- The state with other turns to come. -/
def onAgenda (s : State) (ts : List Turn) : State := { s with agenda := ts }

theorem step_block_onAgenda {i : Instr} {ts : List Turn} (hfits : fits s = true)
    (hrun : running s = some i)
    (h : microStep (onAgenda s ts) = .next (onAgenda t ts)) :
    step (onAgenda s (.block :: ts)) = .next (onAgenda t ts) :=
  (step_of_block (s := onAgenda s (.block :: ts)) hfits hrun rfl).trans h

/-- After `TX_LOAD` (rule R125). -/
def chunkLoaded (s : State) : State :=
  goto
    (logCall
      (setDp s { s.dp with
        chunkLen := BitVec.ofNat 4 (chunkLength s.dp.txSize s.dp.txOff)
        chunk := Memory.loadInto s.mem (s.dp.txBase + s.dp.txOff) s.dp.chunk
          (chunkLength s.dp.txSize s.dp.txOff)
        errSnap := s.periph.tec })
      .txErrCount)
    .txTrigger

/-- After `TX_TRIGGER` (rule R126). -/
def chunkTriggered (s : State) : State :=
  { s with
    periph := { s.periph with
      tx := { busy := true, id := s.txId, len := s.dp.chunkLen, data := chunkData s } }
    calls := .txSend s.txId s.dp.chunkLen (chunkData s) true :: s.calls
    irqMask := false
    fsm := .txPollErr }

/-- After the environment freed the slot (law E3). -/
def slotFreed (s : State) : State :=
  { s with periph := { s.periph with tx := { s.periph.tx with busy := false } } }

/-- After a `TX_POLL_ERR` that found the counter as it was (rule R127). -/
def errPolled (s : State) : State := goto (logCall s .txErrCount) .txPollFree

/-- After a `TX_POLL_FREE` that found the slot free (rule R128). -/
def chunkDone (s : State) : State :=
  goto (setDp (logCall s .txFull) { s.dp with txOff := s.dp.txOff + s.dp.chunkLen.toNat })
    (if s.dp.txOff + s.dp.chunkLen.toNat = s.dp.txSize then .txFinal else .txLoad)

theorem step_chunkLoaded {l : List Turn} (hfits : fits s = true) (hf : s.fsm = .txLoad)
    (hret : s.dp.txRet = .host) (hoff : s.dp.txOff < s.dp.txSize)
    (hin : s.dp.txBase + s.dp.txSize ≤ spaceEnd s) :
    step (onAgenda s (.block :: l)) = .next (onAgenda (chunkLoaded s) l) :=
  step_block_onAgenda hfits (running_of_host (by simp [writeRuns, hf]) hret)
    ((microStep_of_txLoad (s := onAgenda s l) hf).trans
      (txLoad_of_inSpace (s := onAgenda s l) (inSpace_chunk hoff hin)))

theorem step_chunkTriggered {l : List Turn} (hfits : fits s = true) (hf : s.fsm = .txTrigger)
    (hret : s.dp.txRet = .host) :
    step (onAgenda s (.block :: l)) = .next (onAgenda (chunkTriggered s) l) :=
  step_block_onAgenda hfits (running_of_host (by simp [writeRuns, hf]) hret)
    (microStep_of_txTrigger (s := onAgenda s l) hf)

theorem step_slotFreed {l : List Turn} (hfits : fits s = true) (hbusy : s.periph.tx.busy = true) :
    step (onAgenda s (.env .txFree :: l)) = .next (onAgenda (slotFreed s) l) := by
  rw [step_of_env (s := onAgenda s (.env .txFree :: l)) hfits rfl]
  simp [envStep, onAgenda, hbusy, slotFreed]

theorem step_errPolled {l : List Turn} (hfits : fits s = true) (hf : s.fsm = .txPollErr)
    (hret : s.dp.txRet = .host) (hbudget : 0 ≤ s.dp.txBudget) (hsnap : s.dp.errSnap = s.periph.tec) :
    step (onAgenda s (.block :: l)) = .next (onAgenda (errPolled s) l) :=
  step_block_onAgenda hfits (running_of_host (by simp [writeRuns, hf]) hret)
    ((microStep_of_txPollErr (s := onAgenda s l) hf).trans
      (txPollErr_of_passes (s := onAgenda s l) hbudget (by
        show tecFail s.params s.dp.errSnap s.periph.tec = false
        rw [hsnap, tecFail_self])))

theorem step_chunkDone {l : List Turn} (hfits : fits s = true) (hf : s.fsm = .txPollFree)
    (hret : s.dp.txRet = .host) (hfree : s.periph.tx.busy = false)
    (hnext : s.dp.txOff + s.dp.chunkLen.toNat < 2 ^ s.params.sizeW) :
    step (onAgenda s (.block :: l)) = .next (onAgenda (chunkDone s) l) :=
  step_block_onAgenda hfits (running_of_host (by simp [writeRuns, hf]) hret)
    ((microStep_of_txPollFree (s := onAgenda s l) hf).trans
      (txPollFree_of_free (s := onAgenda s l) hfree hnext))

/-- `u` is in state `f` in the middle of the chunk that `s` is about to load. -/
structure MidChunk (s u : State) (f : Fsm) : Prop where
  fits : fits u = true
  fsm : u.fsm = f
  fault : u.fault = s.fault
  params : u.params = s.params
  bus : u.periph.bus = s.periph.bus
  mem : u.mem = s.mem
  cursor : u.cursor = s.cursor
  txId : u.txId = s.txId
  txRet : u.dp.txRet = .host
  budget : 0 ≤ u.dp.txBudget
  txBase : u.dp.txBase = s.dp.txBase
  txSize : u.dp.txSize = s.dp.txSize
  txOff : u.dp.txOff = s.dp.txOff
  chunkLen : u.dp.chunkLen = BitVec.ofNat 4 (chunkLength s.dp.txSize s.dp.txOff)
  errSnap : u.dp.errSnap = u.periph.tec

section
variable {u : State} {f : Fsm}

theorem midChunk_chunkLoaded (hfits : fits s = true) (hret : s.dp.txRet = .host)
    (hbudget : 0 ≤ s.dp.txBudget) : MidChunk s (chunkLoaded s) .txTrigger :=
  ⟨hfits, rfl, rfl, rfl, rfl, rfl, rfl, rfl, hret, hbudget, rfl, rfl, rfl, rfl, rfl⟩

theorem MidChunk.triggered (h : MidChunk s u .txTrigger) :
    MidChunk s (chunkTriggered u) .txPollErr := { h with fsm := rfl }

theorem MidChunk.freed (h : MidChunk s u f) : MidChunk s (slotFreed u) f := { h with }

theorem MidChunk.errPolled (h : MidChunk s u .txPollErr) :
    MidChunk s (errPolled u) .txPollFree := { h with fsm := rfl }

/-- The three turns after a trigger: the slot frees, and both polls pass. -/
theorem MidChunk.run_polls {l : List Turn} (h : MidChunk s u .txPollErr)
    (hbusy : u.periph.tx.busy = true) (hoff : s.dp.txOff < s.dp.txSize)
    (hsize : s.dp.txSize < 2 ^ s.params.sizeW) :
    run 3 (onAgenda u (.env .txFree :: .block :: .block :: l)) =
      .next (onAgenda (chunkDone (Machine.errPolled (slotFreed u))) l) := by
  have hfreed := h.freed
  have hpolled := hfreed.errPolled
  have hle : chunkLength s.dp.txSize s.dp.txOff ≤ s.dp.txSize - s.dp.txOff := Nat.min_le_right _ _
  refine run_cons (step_slotFreed h.fits hbusy)
    (run_cons (step_errPolled hfreed.fits hfreed.fsm hfreed.txRet hfreed.budget hfreed.errSnap)
      (run_one (step_chunkDone hpolled.fits hpolled.fsm hpolled.txRet rfl ?_)))
  rw [hpolled.txOff, hpolled.chunkLen, chunkLength_toNat, hpolled.params]
  omega

end

/-! ## The frame one chunk hands to the slot -/

theorem sentFrames_chunkLoaded (s : State) : sentFrames (chunkLoaded s) = sentFrames s := by
  simp [sentFrames, chunkLoaded, List.filterMap_cons, Call.sent]

theorem sentFrames_chunkTriggered (s : State) : sentFrames (chunkTriggered s) =
    sentFrames s ++ [(s.txId, s.dp.chunkLen, chunkData s)] := by
  simp [sentFrames, chunkTriggered, Call.sent]

theorem sentFrames_polled (s : State) :
    sentFrames (chunkDone (errPolled (slotFreed s))) = sentFrames s := by
  simp [sentFrames, chunkDone, errPolled, slotFreed, List.filterMap_cons, Call.sent]

theorem chunkData_chunkLoaded (s : State) : chunkData (chunkLoaded s) =
    bytesAt s.mem (s.dp.txBase + s.dp.txOff) (chunkLength s.dp.txSize s.dp.txOff) := by
  rw [chunkData, chunkLoaded]
  simp only [goto_dp, logCall_dp, setDp_dp, chunkLength_toNat]
  exact loadInto_take_eq_bytesAt _ _ _ (chunkLength_le _ _)

/-- One chunk takes five turns; the last of them leaves `v`, whose polls have passed. -/
theorem run_chunk {l : List Turn} (hfits : fits s = true) (hf : s.fsm = .txLoad)
    (hret : s.dp.txRet = .host) (hbudget : 0 ≤ s.dp.txBudget) (hoff : s.dp.txOff < s.dp.txSize)
    (hsize : s.dp.txSize < 2 ^ s.params.sizeW) (hin : s.dp.txBase + s.dp.txSize ≤ spaceEnd s) :
    ∃ v, MidChunk s v .txPollFree ∧ v.periph.tx.busy = false ∧
      run 5 (onAgenda s (.block :: .block :: .env .txFree :: .block :: .block :: l)) =
        .next (onAgenda (chunkDone v) l) ∧
      sentFrames (chunkDone v) = sentFrames s ++
        [(s.txId, BitVec.ofNat 4 (chunkLength s.dp.txSize s.dp.txOff),
          bytesAt s.mem (s.dp.txBase + s.dp.txOff) (chunkLength s.dp.txSize s.dp.txOff))] := by
  have hloaded := midChunk_chunkLoaded hfits hret hbudget
  refine ⟨_, hloaded.triggered.freed.errPolled, rfl, run_cons
    (step_chunkLoaded hfits hf hret hoff hin)
    (run_cons (step_chunkTriggered hloaded.fits hloaded.fsm hloaded.txRet)
      (hloaded.triggered.run_polls rfl hoff hsize)), ?_⟩
  rw [sentFrames_polled, sentFrames_chunkTriggered, sentFrames_chunkLoaded, chunkData_chunkLoaded,
    hloaded.txId, hloaded.chunkLen]

/-! ## All the chunks -/

/-- The next chunk of a WRITE is its last exactly when it reaches the end of the buffer. -/
theorem SendingChunks.chunk {k n : Nat} (h : SendingChunks s rest k (n + 1)) :
    s.dp.txOff < s.dp.txSize ∧
    (s.dp.txOff + chunkLength s.dp.txSize s.dp.txOff = s.dp.txSize ↔ n = 0) ∧
    (n ≠ 0 → s.dp.txOff + chunkLength s.dp.txSize s.dp.txOff = 8 * (k + 1)) := by
  have hoff := h.txOff (Nat.succ_ne_zero n)
  have hleft := h.left
  unfold chunkCount at hleft
  simp only [hoff, chunkLength, maxFrameLen]
  omega

/-- A chunk whose polls have passed leaves the WRITE at the next chunk. -/
theorem SendingChunks.done {u : State} {k n : Nat} (h : SendingChunks s rest k (n + 1))
    (hu : MidChunk s u .txPollFree) (hfree : u.periph.tx.busy = false) :
    SendingChunks (onAgenda (chunkDone u) (promptTurns n ++ .block :: rest)) rest (k + 1) n := by
  obtain ⟨_, hlast, hmore⟩ := h.chunk
  have hnext : u.dp.txOff + u.dp.chunkLen.toNat =
      s.dp.txOff + chunkLength s.dp.txSize s.dp.txOff := by
    rw [hu.txOff, hu.chunkLen, chunkLength_toNat]
  refine ⟨hu.fits, rfl, ?_, hu.fault.trans h.fault, hu.txRet, hu.budget, hfree,
    hu.bus.trans h.bus, fun hn => hnext.trans (hmore hn), ?_, ?_, ?_⟩
  · show (if u.dp.txOff + u.dp.chunkLen.toNat = u.dp.txSize then Fsm.txFinal else .txLoad) = _
    rw [hnext, hu.txSize]
    exact if_congr hlast rfl rfl
  · show k + 1 + n = chunkCount u.dp.txSize
    have := h.left
    rw [hu.txSize]
    omega
  · show u.dp.txSize < 2 ^ u.params.sizeW
    rw [hu.txSize, hu.params]
    exact h.txSize
  · show u.dp.txBase + u.dp.txSize ≤ 2 ^ u.params.addrW
    rw [hu.txBase, hu.txSize, hu.params]
    exact h.inSpace

/-- One chunk of a WRITE. -/
theorem SendingChunks.next {k n : Nat} (h : SendingChunks s rest k (n + 1)) :
    ∃ t, run 5 s = .next t ∧ SendingChunks t rest (k + 1) n ∧
      Sent s t [(s.txId, BitVec.ofNat 4 (chunkLength s.dp.txSize (8 * k)),
        bytesAt s.mem (s.dp.txBase + 8 * k) (chunkLength s.dp.txSize (8 * k)))] := by
  obtain ⟨hoff, -, -⟩ := h.chunk
  obtain ⟨v, hv, hfree, hrun, hsent⟩ := run_chunk (l := promptTurns n ++ .block :: rest) h.fits h.fsm
    h.txRet h.budget hoff h.txSize h.inSpace
  have hs : onAgenda s (.block :: .block :: .env .txFree :: .block :: .block ::
      (promptTurns n ++ .block :: rest)) = s := congrArg (onAgenda s) h.agenda.symm
  rw [hs] at hrun
  rw [h.txOff (Nat.succ_ne_zero n)] at hsent
  exact ⟨_, hrun, h.done hv hfree, ⟨hsent, hv.mem, hv.cursor, hv.txId, hv.txBase, hv.txSize⟩⟩

/-- All the chunks that are left. -/
theorem run_chunks {k n : Nat} (h : SendingChunks s rest k n) :
    ∃ t, run (5 * n) s = .next t ∧ SendingChunks t rest (k + n) 0 ∧
      Sent s t (chunkFrames s.mem s.txId s.dp.txBase s.dp.txSize k n) := by
  induction n generalizing s k with
  | zero => exact ⟨s, rfl, h, ⟨(List.append_nil _).symm, rfl, rfl, rfl, rfl, rfl⟩⟩
  | succ n ih =>
    obtain ⟨t, hrun, ht, hsent⟩ := h.next
    obtain ⟨u, hrun', hu, hsent'⟩ := ih ht
    rw [hsent.mem, hsent.txId, hsent.txBase, hsent.txSize] at hsent'
    refine ⟨u, ?_, ?_, hsent.trans hsent'⟩
    · rw [Nat.mul_succ, Nat.add_comm]
      exact run_append hrun hrun'
    · rwa [Nat.add_right_comm, Nat.add_assoc] at hu

/-- The WRITE that waits for its slot, once it is free, is at its first chunk. -/
theorem sendingChunks_of_waiting {n : Nat} (hfits : fits s = true)
    (hfault : s.fault = false) (hret : s.dp.txRet = .host) (hbudget : 0 ≤ s.dp.txBudget)
    (hfree : s.periph.tx.busy = false) (hbus : s.periph.bus = .active) (hoff : s.dp.txOff = 0)
    (hpos : 0 < s.dp.txSize) (hn : n = chunkCount s.dp.txSize)
    (hsize : s.dp.txSize < 2 ^ s.params.sizeW) (hin : s.dp.txBase + s.dp.txSize ≤ spaceEnd s) :
    SendingChunks (onAgenda (goto (logCall s .txFull) .txLoad) (promptTurns n ++ .block :: rest))
      rest 0 n := by
  have hne : n ≠ 0 := by rw [hn, chunkCount]; omega
  exact ⟨hfits, rfl, (if_neg hne).symm, hfault, hret, hbudget, hfree, hbus, fun _ => hoff,
    (Nat.zero_add n).trans hn, hsize, hin⟩

/-- After its last chunk a host WRITE on an active bus ends with `OK`. -/
theorem SendingChunks.finished {k : Nat} (h : SendingChunks s rest k 0) :
    step s = .next (ended (logCall { s with agenda := rest } .busState) .ok s.dp.txSize) := by
  have hf : s.fsm = .txFinal := h.fsm
  have hgood : txFaultState s.params s.periph.bus = false := by
    rw [h.bus]
    cases hp : s.params.txFaultStates <;> simp [txFaultState, hp]
  rw [step_of_block (i := .write) h.fits (running_of_host (by simp [writeRuns, hf]) h.txRet) h.agenda,
    microStep_of_txFinal (s := { s with agenda := rest }) hf,
    txFinal_of_goodState (s := { s with agenda := rest }) hgood,
    txReturn_host (logCall { s with agenda := rest } .busState) _ _ h.txRet,
    finish_of_fits (s := logCall { s with agenda := rest } .busState) h.txSize]

end

/-- Settles O58: the `CMD` write, `TX_START` and `TX_WAIT_FREE` bring the WRITE to its first chunk,
`run_chunks` sends them all, and `TX_FINAL` finds an active bus. -/
theorem writeSendsEveryChunkInOrder : Obligations.WriteSendsEveryChunkInOrder := by
  intro s rest hfits hs hslot hpos hsize hin hfree hbus ha
  have ⟨_, _, hfault⟩ := hs
  have hcmd := step_startWrite hfits hs ha
  have hstart (l : List Turn) : step (startWrite { s with agenda := .block :: l }) =
      .next (writeWaiting { s with agenda := l }) :=
    (step_of_block (s := startWrite { s with agenda := .block :: l }) (i := .write) hfits rfl
      rfl).trans
      (txStart_of_startWrite (s := { s with agenda := l }) hslot hpos hin)
  have hwait (l : List Turn) : step (writeWaiting { s with agenda := .block :: l }) =
      .next (goto (logCall (writeWaiting { s with agenda := l }) .txFull) .txLoad) :=
    (step_of_block (s := writeWaiting { s with agenda := .block :: l }) (i := .write) hfits rfl
      rfl).trans
      (txWaitFree_of_free (s := writeWaiting { s with agenda := l }) (Int.natCast_nonneg _) hfree)
  have hfirst := sendingChunks_of_waiting (s := writeWaiting s) (rest := rest) hfits hfault rfl
    (Int.natCast_nonneg _) hfree hbus rfl hpos rfl hsize hin
  obtain ⟨u, hrun, hu, hsent⟩ := run_chunks hfirst
  have hcount : u.dp.txSize = s.bufSize := hsent.txSize
  have hlast := hu.finished
  rw [hcount] at hlast
  refine ⟨ended (logCall { u with agenda := rest } .busState) .ok s.bufSize, ?_,
    ⟨rfl, rfl, hu.fault⟩, rfl, rfl, rfl, hsent.mem, hsent.cursor, ?_⟩
  · exact run_cons hcmd (run_cons (hstart _) (run_cons (hwait _)
      (run_append hrun (run_one hlast))))
  · exact hsent.sent

end Sys2Proof.Machine

/-!
SUPPORT. The READ that reassembles a packet (41_receive.md rules R157 and R158): one frame takes six
micro-steps, and the frames follow one another into the buffer.
-/

namespace Sys2Proof.Machine

open Sys2Proof.Config Sys2Proof.Safety

/-- The slots with slot `i` released. -/
def emptied (slots : List RxSlot) (i : Nat) : List RxSlot :=
  slots.modify i fun slot => { slot with full := false }

/-- `u` is a READ in state `f` of a quiet environment, with what `s` configured: its cursor, its count,
its memory and its receive slots are `c`, `n`, `m` and `slots`. -/
structure Receiving (s u : State) (f : Fsm) (c n : Nat) (m : Memory) (slots : List RxSlot) : Prop where
  fits : fits u = true
  fsm : u.fsm = f
  agenda : u.agenda = []
  refrain : u.refrain = []
  fault : u.fault = false
  params : u.params = s.params
  config : u.config = s.config
  ownId : u.ownId = s.ownId
  bcastId : u.bcastId = s.bcastId
  bufBase : u.bufBase = s.bufBase
  bufSize : u.bufSize = s.bufSize
  bus : u.periph.bus = s.periph.bus
  cursor : u.cursor = c
  count : u.dp.count = n
  mem : u.mem = m
  slots : u.periph.slots = slots

/-- The READ of the packet `w` that `s` is about to start, and the frames that wait for it. -/
structure PacketWaiting (s : State) (w : List Byte) : Prop where
  fixedLanes : s.params.swapPartial = .fixedLanes
  advances : s.params.advanceOnComplete = true
  echoOff : s.config.getLsbD 2 = false
  size : s.bufSize < 2 ^ s.params.sizeW
  minSize : 8 ≤ s.bufSize
  inSpace : s.bufBase + s.bufSize ≤ 2 ^ s.params.addrW
  room : w.length ≤ s.bufSize
  bus : s.periph.bus = .active
  length : w.length = 7 + ((w.getD 2 0).toNat + 256 * (w.getD 3 0).toNat)
  first : w.getD 0 0 = 0x01
  last : w.getD (w.length - 1) 0 = 0x17
  cursor : s.cursor + chunkCount w.length ≤ s.params.nRx
  frames : ∀ k < chunkCount w.length, ∃ slot : RxSlot,
    s.periph.slots[s.cursor + k]? = some slot ∧ slot.full = true ∧ Accepts s slot.id ∧
    slot.len.toNat = chunkLength w.length (8 * k) ∧
    laneLaw slot.lanes ((w.drop (8 * k)).take 8)

section
variable {s u : State} {w : List Byte} {f : Fsm} {c n : Nat} {m : Memory} {slots : List RxSlot}
  {slot : RxSlot}

/-! ## The micro-steps of one frame -/

theorem Receiving.step (h : Receiving s u f c n m slots) (hrun : running u = some .read) :
    step u = microStep u := step_of_quiet_running h.fits hrun h.agenda h.refrain

theorem Receiving.slotAt (h : Receiving s u f c n m slots) (hslot : slots[c]? = some slot) :
    slotAt u u.cursor = some slot := by
  rw [Machine.slotAt, h.slots, h.cursor]
  exact hslot

theorem Receiving.cursor_lt (h : Receiving s u f c n m slots) (hslot : slots[c]? = some slot) :
    c < s.params.nRx := by
  rw [← h.params, ← slots_length_of_fits h.fits, h.slots]
  exact (List.getElem?_eq_some_iff.1 hslot).1

theorem Receiving.busPassed (h : Receiving s u .rxBus c n m slots) (hslot : slots[c]? = some slot)
    (hbus : s.periph.bus ≠ .busOff) :
    ∃ v, Machine.step u = .next v ∧ Receiving s v .rxTest c n m slots := by
  have hf := h.fsm
  have hc := h.cursor_lt hslot
  rw [← h.params, ← h.cursor] at hc
  rw [← h.bus] at hbus
  rw [h.step (by simp only [running, hf])]
  simp only [microStep, hf]
  exact ⟨_, rxBus_of_not_busOff hc hbus, { h with fsm := rfl }⟩

theorem Receiving.tested (h : Receiving s u .rxTest c n m slots) (hslot : slots[c]? = some slot)
    (hfull : slot.full = true) :
    ∃ v, Machine.step u = .next v ∧ Receiving s v .rxFilter c n m slots := by
  have hf := h.fsm
  rw [h.step (by simp only [running, hf])]
  simp only [microStep, hf]
  exact ⟨_, rxTest_of_full (h.slotAt hslot) hfull, { h with fsm := rfl }⟩

theorem Receiving.filtered (h : Receiving s u .rxFilter c n m slots) (hslot : slots[c]? = some slot)
    (haccept : Accepts s slot.id) (hlen : slot.len.toNat ≤ maxFrameLen)
    (hroom : n + slot.len.toNat ≤ s.bufSize) :
    ∃ v, Machine.step u = .next v ∧ Receiving s v .rxCopy c n m slots ∧ v.dp.len = slot.len := by
  have hf := h.fsm
  have hid : accept u slot.id = true := by
    rw [accept_iff_fields, filterEn, bcastEn, h.config, h.ownId, h.bcastId]
    exact haccept
  rw [← h.count, ← h.bufSize] at hroom
  rw [h.step (by simp only [running, hf])]
  simp only [microStep, hf]
  exact ⟨_, rxFilter_of_taken (h.slotAt hslot) hid hlen hroom, { h with fsm := rfl }, rfl⟩

theorem Receiving.copied (h : Receiving s u .rxCopy c n m slots) (hslot : slots[c]? = some slot)
    (hul : u.dp.len = slot.len) (hlen : slot.len.toNat ≤ maxFrameLen)
    (hin : s.bufBase + n + slot.len.toNat ≤ 2 ^ s.params.addrW) :
    ∃ v, Machine.step u = .next v ∧ v.dp.len = slot.len ∧
      Receiving s v .rxRelease c n
        (Memory.copyDown (payloadByte s.params slot.lanes slot.len.toNat) m (s.bufBase + n)
          slot.len.toNat) slots := by
  have hf := h.fsm
  have hspace : inSpace u (bufAddr u u.dp.count) u.dp.len.toNat = true := by
    refine inSpace_of_le ?_
    rw [bufAddr, spaceEnd, h.bufBase, h.count, hul, h.params]
    exact hin
  rw [h.step (by simp only [running, hf])]
  simp only [microStep, hf]
  refine ⟨_, rxCopy_of_inSpace (h.slotAt hslot) (hul ▸ hlen) hspace, hul,
    { h with fsm := rfl, mem := ?_ }⟩
  simp only [goto_mem, bufAddr, h.bufBase, h.count, hul, h.params, h.mem]

theorem Receiving.released (h : Receiving s u .rxRelease c n m slots)
    (hslot : slots[c]? = some slot) (hecho : s.config.getLsbD 2 = false) :
    ∃ v, Machine.step u = .next v ∧ v.dp.len = u.dp.len ∧
      Receiving s v .rxAdvance c n m (emptied slots c) := by
  have hf := h.fsm
  have hoff : echoEn u = false := by rw [echoEn, h.config, hecho]
  have hstep := rxReleaseStep_of_slot (h.slotAt hslot)
  rw [hoff] at hstep
  have hfits := h.fits
  rw [h.step (by simp only [running, hf])]
  simp only [microStep, hf]
  refine ⟨_, hstep, rfl, { h with fits := ?_, fsm := rfl, slots := ?_ }⟩
  · simpa [Machine.fits] using hfits
  · simp [emptied, h.slots, h.cursor]

/-- The five micro-steps that take a frame from its slot into the buffer. -/
theorem Receiving.taken (h : Receiving s u .rxBus c n m slots) (hslot : slots[c]? = some slot)
    (hbus : s.periph.bus ≠ .busOff) (hfull : slot.full = true) (haccept : Accepts s slot.id)
    (hlen : slot.len.toNat ≤ maxFrameLen) (hroom : n + slot.len.toNat ≤ s.bufSize)
    (hin : s.bufBase + s.bufSize ≤ 2 ^ s.params.addrW) (hecho : s.config.getLsbD 2 = false) :
    ∃ v, run 5 u = .next v ∧ v.dp.len = slot.len ∧
      Receiving s v .rxAdvance c n
        (Memory.copyDown (payloadByte s.params slot.lanes slot.len.toNat) m (s.bufBase + n)
          slot.len.toNat) (emptied slots c) := by
  obtain ⟨v₁, hbusStep, h₁⟩ := h.busPassed hslot hbus
  obtain ⟨v₂, htest, h₂⟩ := h₁.tested hslot hfull
  obtain ⟨v₃, hfilter, h₃, hlen₃⟩ := h₂.filtered hslot haccept hlen hroom
  obtain ⟨v₄, hcopy, hlen₄, h₄⟩ := h₃.copied hslot hlen₃ hlen (by omega)
  obtain ⟨v₅, hrelease, hlen₅, h₅⟩ := h₄.released hslot hecho
  exact ⟨v₅, run_cons hbusStep (run_cons htest (run_cons hfilter (run_cons hcopy
    (run_one hrelease)))), hlen₅.trans hlen₄, h₅⟩

/-! ## What the buffer and the slots hold -/

/-- The first `n` bytes of `w` are in the buffer, and nothing outside it has changed. -/
structure Stored (s : State) (w : List Byte) (m : Memory) (n : Nat) : Prop where
  wf : m.wf
  bytes : ∀ i < n, m.read (s.bufBase + i) = w.getD i 0
  outside : ∀ a, a < s.bufBase ∨ s.bufBase + s.bufSize ≤ a → m.read a = s.mem.read a

/-- The first `k` slots from the cursor on are released, and the slots after them untouched. -/
structure Taken (s : State) (slots : List RxSlot) (k : Nat) : Prop where
  released : ∀ j < k, (slots[s.cursor + j]?).any (·.full) = false
  waiting : ∀ j, k ≤ j → slots[s.cursor + j]? = s.periph.slots[s.cursor + j]?

theorem Taken.succ {k : Nat} (h : Taken s slots k) : Taken s (emptied slots (s.cursor + k)) (k + 1) := by
  refine ⟨fun j hj => ?_, fun j hj => ?_⟩
  · by_cases hjk : j = k
    · subst hjk
      cases hslot : slots[s.cursor + j]? <;> simp [emptied, hslot]
    · have hne : s.cursor + k ≠ s.cursor + j := by omega
      rw [emptied, List.getElem?_modify_ne _ _ hne]
      exact h.released j (by omega)
  · have hne : s.cursor + k ≠ s.cursor + j := by omega
    rw [emptied, List.getElem?_modify_ne _ _ hne]
    exact h.waiting j (by omega)

/-- A frame that obeys the lane law continues the packet in the buffer (rule R158). -/
theorem Stored.copyDown {L : Nat} {lanes : Lanes} (h : Stored s w m n)
    (hp : s.params.swapPartial = .fixedLanes) (hlaw : laneLaw lanes ((w.drop n).take 8))
    (hL : L = chunkLength w.length n) (hroom : n + L ≤ s.bufSize) :
    Stored s w (Memory.copyDown (payloadByte s.params lanes L) m (s.bufBase + n) L) (n + L) := by
  have hlength : ((w.drop n).take 8).length = L := by
    rw [List.length_take, List.length_drop, hL]
    rfl
  refine ⟨copyDown_wf _ _ _ _ h.wf, fun i hi => ?_, fun a ha => ?_⟩
  · rw [read_copyDown _ _ _ _ _ h.wf]
    split
    next hnew =>
      have hk : i - n < ((w.drop n).take 8).length := by omega
      have hbyte := payloadByte_of_laneLaw hp hlaw hk
      rw [hlength] at hbyte
      have hindex : s.bufBase + i - (s.bufBase + n) = i - n := by omega
      have hplace : n + (i - n) = i := by omega
      rw [hindex, hbyte, List.getElem_take, List.getElem_drop]
      simp only [hplace]
      exact (List.getD_eq_getElem _ _ _).symm
    next hold => exact h.bytes i (by omega)
  · rw [read_copyDown _ _ _ _ _ h.wf, if_neg (by omega)]
    exact h.outside a ha

/-! ## The end of a frame -/

theorem PacketWaiting.seven_le (hp : PacketWaiting s w) : 7 ≤ w.length := by
  have := hp.length
  omega

theorem Receiving.readable (h : Receiving s u f c n m slots) (hp : PacketWaiting s w) {k : Nat}
    (hk : k ≤ w.length) : PacketReadable u k := by
  obtain ⟨hmin, hin, hroom⟩ := And.intro hp.minSize (And.intro hp.inSpace hp.room)
  rw [PacketReadable, h.bufBase, h.params]
  omega

/-- The length field of a stored beginning of the packet gives the packet's length. -/
theorem Receiving.length_of_stored {k : Nat} (h : Receiving s u f c n m slots)
    (hp : PacketWaiting s w) (hm : Stored s w m k) (hk : 4 ≤ k) :
    7 + ((u.mem.read (u.bufBase + 2)).toNat + 256 * (u.mem.read (u.bufBase + 3)).toNat) =
      w.length := by
  rw [h.mem, h.bufBase, hm.bytes 2 (by omega), hm.bytes 3 (by omega)]
  exact hp.length.symm

/-- The whole packet is complete (rule R174). -/
theorem Receiving.complete (h : Receiving s u f c n m slots) (hp : PacketWaiting s w)
    (hm : Stored s w m w.length) : Machine.complete u w.length = some true := by
  have hseven := hp.seven_le
  refine complete_of_packet (h.readable hp le_rfl)
    ⟨(h.length_of_stored hp hm (by omega)).symm, ?_, ?_⟩
  · rw [h.mem, h.bufBase]
    exact (hm.bytes 0 (by omega)).trans hp.first
  · rw [h.mem, h.bufBase]
    exact (hm.bytes _ (by omega)).trans hp.last

/-- A true beginning of the packet that holds its length field is not complete. -/
theorem Receiving.incomplete {k : Nat} (h : Receiving s u f c n m slots) (hp : PacketWaiting s w)
    (hm : Stored s w m k) (hk : 4 ≤ k) (hlt : k < w.length) :
    Machine.complete u k = some false := by
  refine complete_of_not_packet (h.readable hp hlt.le) fun ⟨hlen, _, _⟩ => ?_
  rw [h.length_of_stored hp hm hk] at hlen
  omega

theorem Receiving.advance_step (h : Receiving s u .rxAdvance c n m slots) :
    Machine.step u = rxAdvance u := by
  have hf := h.fsm
  rw [h.step (by simp only [running, hf])]
  simp only [microStep, hf]

/-- A frame before the last sends the READ on to the next slot. -/
theorem Receiving.advanced (h : Receiving s u .rxAdvance c n m slots)
    (hsize : n + u.dp.len.toNat < 2 ^ s.params.sizeW) (hc : c < s.params.nRx)
    (hcomplete : Machine.complete u (n + u.dp.len.toNat) = some false) :
    ∃ v, Machine.step u = .next v ∧
      Receiving s v .rxBus (c + 1) (n + u.dp.len.toNat) m slots := by
  rw [← h.count, ← h.params] at hsize
  rw [← h.count] at hcomplete
  have hstep := rxAdvance_of_incomplete hsize hcomplete
  rw [setCursor_of_le (by rw [h.cursor]; exact h.params ▸ hc)] at hstep
  rw [h.advance_step]
  refine ⟨_, hstep, { h with fsm := rfl, cursor := ?_, count := ?_ }⟩
  · exact congrArg (· + 1) h.cursor
  · exact congrArg (· + u.dp.len.toNat) h.count

/-- The last frame ends the READ with `OK`, past its slot. -/
theorem Receiving.ended (h : Receiving s u .rxAdvance c n m slots)
    (hsize : n + u.dp.len.toNat < 2 ^ s.params.sizeW) (hc : c < s.params.nRx)
    (hadv : s.params.advanceOnComplete = true)
    (hcomplete : Machine.complete u (n + u.dp.len.toNat) = some true) :
    ∃ v, Machine.step u = .next v ∧ ready v ∧ v.result = .ok ∧ v.countReg = n + u.dp.len.toNat ∧
      v.mem = m ∧ v.cursor = c + 1 ∧ v.periph.slots = slots := by
  rw [← h.count, ← h.params] at hsize
  rw [← h.count] at hcomplete
  have hstep := rxAdvance_of_complete hsize hcomplete
  rw [if_pos (h.params ▸ hadv), setCursor_of_le (by rw [h.cursor]; exact h.params ▸ hc),
    finish_of_fits (by exact hsize)] at hstep
  rw [h.advance_step]
  refine ⟨_, hstep, ⟨rfl, rfl, h.fault⟩, rfl, ?_, h.mem, ?_, h.slots⟩
  · exact congrArg (· + u.dp.len.toNat) h.count
  · exact congrArg (· + 1) h.cursor

/-! ## All the frames -/

/-- The READ before frame `k` of the packet. -/
structure Reassembling (s u : State) (w : List Byte) (m : Memory) (slots : List RxSlot) (k : Nat) :
    Prop where
  scan : Receiving s u .rxBus (s.cursor + k) (8 * k) m slots
  stored : Stored s w m (8 * k)
  taken : Taken s slots k

/-- `v` has received the packet `w`. -/
structure Received (s v : State) (w : List Byte) : Prop where
  ready : ready v
  result : v.result = .ok
  countReg : v.countReg = w.length
  stored : Stored s w v.mem w.length
  cursor : v.cursor = s.cursor + chunkCount w.length
  taken : Taken s v.periph.slots (chunkCount w.length)

/-- The five micro-steps of frame `k`. -/
theorem Reassembling.frame {k : Nat} (h : Reassembling s u w m slots k) (hp : PacketWaiting s w)
    (hk : k < chunkCount w.length) :
    ∃ v m' slots', run 5 u = .next v ∧ v.dp.len.toNat = chunkLength w.length (8 * k) ∧
      Receiving s v .rxAdvance (s.cursor + k) (8 * k) m' slots' ∧
      Stored s w m' (8 * k + chunkLength w.length (8 * k)) ∧ Taken s slots' (k + 1) := by
  obtain ⟨slot, hslot, hfull, haccept, hlen, hlaw⟩ := hp.frames k hk
  rw [← h.taken.waiting k le_rfl] at hslot
  have hlen8 : slot.len.toNat ≤ maxFrameLen := hlen ▸ chunkLength_le _ _
  have hroom : 8 * k + slot.len.toNat ≤ s.bufSize := by
    have := hp.room
    rw [chunkCount] at hk
    rw [hlen, chunkLength]
    omega
  have hbus : s.periph.bus ≠ .busOff := by simp [hp.bus]
  obtain ⟨v, hrun, hul, hv⟩ := h.scan.taken hslot hbus hfull haccept hlen8 hroom hp.inSpace hp.echoOff
  exact ⟨v, _, _, hrun, hul ▸ hlen, hv,
    hlen ▸ h.stored.copyDown hp.fixedLanes hlaw hlen hroom, h.taken.succ⟩

/-- A frame before the last brings the READ to the next one. -/
theorem Reassembling.more {k : Nat} (h : Reassembling s u w m slots k) (hp : PacketWaiting s w)
    (hk : k + 1 < chunkCount w.length) :
    ∃ v m' slots', run 6 u = .next v ∧ Reassembling s v w m' slots' (k + 1) := by
  obtain ⟨v, m', slots', hrun, hul, hv, hstored, htaken⟩ := h.frame hp (by omega)
  have hend := chunk_end_le_of_not_last hk
  have hlt : 8 * k + 8 < w.length := by
    rw [chunkCount] at hk
    omega
  rw [chunkLength_of_full hend] at hul hstored
  have hsize := hp.size
  have hroom := hp.room
  have hcursor := hp.cursor
  have hincomplete := hv.incomplete hp hstored (by omega) hlt
  obtain ⟨t, hstep, ht⟩ := hv.advanced (by omega) (by omega) (hul ▸ hincomplete)
  rw [hul] at ht
  exact ⟨t, m', slots', run_append hrun (run_one hstep), ht, hstored, htaken⟩

/-- The last frame ends the READ. -/
theorem Reassembling.last {k : Nat} (h : Reassembling s u w m slots k) (hp : PacketWaiting s w)
    (hk : k + 1 = chunkCount w.length) : ∃ v, run 6 u = .next v ∧ Received s v w := by
  obtain ⟨v, m', slots', hrun, hul, hv, hstored, htaken⟩ := h.frame hp (by omega)
  have hend : 8 * k + chunkLength w.length (8 * k) = w.length := by
    have hseven := hp.seven_le
    rw [chunkCount] at hk
    rw [chunkLength_of_last (by omega)]
    omega
  rw [← hul] at hend
  rw [← hul, hend] at hstored
  have hsize := hp.size
  have hroom := hp.room
  have hcursor := hp.cursor
  have hcomplete := hv.complete hp hstored
  obtain ⟨t, hstep, hready, hresult, hcount, hmem, hc, hslots⟩ :=
    hv.ended (by omega) (by omega) hp.advances (hend.symm ▸ hcomplete)
  rw [hk] at htaken
  refine ⟨t, run_append hrun (run_one hstep), hready, hresult, hcount.trans hend, hmem ▸ hstored, ?_,
    hslots ▸ htaken⟩
  omega

/-- All the frames that are left. -/
theorem Reassembling.all {j k : Nat} (h : Reassembling s u w m slots k) (hp : PacketWaiting s w)
    (hk : k + (j + 1) = chunkCount w.length) :
    ∃ v, run (6 * (j + 1)) u = .next v ∧ Received s v w := by
  induction j generalizing u m slots k with
  | zero => exact h.last hp hk
  | succ j ih =>
    obtain ⟨v, m', slots', hrun, hv⟩ := h.more hp (by omega)
    obtain ⟨t, hrun', ht⟩ := ih hv (by omega)
    refine ⟨t, ?_, ht⟩
    rw [Nat.mul_succ, Nat.add_comm]
    exact run_append hrun hrun'

/-- Before its first frame the READ has cleared its buffer. -/
theorem stored_nothing (hwf : s.mem.wf) :
    Stored s w (Memory.fill s.mem s.bufBase 0x00 s.bufSize) 0 := by
  refine ⟨fill_wf _ _ _ _ hwf, nofun, fun a ha => ?_⟩
  rw [read_fill _ _ _ _ _ hwf, if_neg (by omega)]

/-- The `CMD` write, `RX_START`, `RX_CLEAR` and `RX_PASS_TOP`. -/
theorem run_to_first_frame (hfits : fits s = true) (hs : ready s) (hwf : s.mem.wf)
    (hp : PacketWaiting s w) (ha : s.agenda = [cmdWrite s.params readWord]) (hr : s.refrain = []) :
    ∃ u, run 4 s = .next u ∧
      Reassembling s u w (Memory.fill s.mem s.bufBase 0x00 s.bufSize) s.periph.slots 0 := by
  have hpos : 0 < chunkCount w.length := by
    have := hp.seven_le
    rw [chunkCount]
    omega
  have hcursor := hp.cursor
  have hstart := run_readScanning hfits hs hp.minSize hp.inSpace ha hr
  have htop : step (readScanning { s with agenda := [] }) = _ :=
    (step_of_quiet_running (s := readScanning { s with agenda := [] }) (i := .read) hfits rfl rfl
      hr).trans
      (rxPassTop_of_lt (s := readScanning { s with agenda := [] }) (Int.natCast_nonneg _)
        (Nat.lt_of_lt_of_le (Nat.lt_add_of_pos_right hpos) hcursor))
  obtain ⟨_, _, hfault⟩ := hs
  exact ⟨_, run_append hstart (run_one htop),
    ⟨hfits, rfl, rfl, hr, hfault, rfl, rfl, rfl, rfl, rfl, rfl, rfl, rfl, rfl, rfl, rfl⟩,
    stored_nothing hwf, nofun, fun _ _ => rfl⟩

end

/-- Settles O59: the start clears the buffer, each frame continues the packet in it, and only the last
makes it complete. -/
theorem readReassemblesThePacket : Obligations.ReadReassemblesThePacket := by
  intro s w hfits hs hwf hlanes hadv hecho hsize hmin hin hroom hbus hlength hfirst hlast hcursor
    hframes ha hr
  have hp : PacketWaiting s w := ⟨hlanes, hadv, hecho, hsize, hmin, hin, hroom, hbus, hlength, hfirst,
    hlast, hcursor, hframes⟩
  obtain ⟨u, hstart, hu⟩ := run_to_first_frame hfits hs hwf hp ha hr
  obtain ⟨j, hj⟩ : ∃ j, j + 1 = chunkCount w.length := by
    have := hp.seven_le
    refine ⟨chunkCount w.length - 1, ?_⟩
    rw [chunkCount]
    omega
  obtain ⟨t, hrun, ht⟩ := hu.all hp ((Nat.zero_add _).trans hj)
  refine ⟨t, ?_, ht.ready, ht.result, ht.countReg, ?_, ht.cursor, ht.stored.outside,
    ht.taken.released⟩
  · rw [← hj, Nat.add_comm]
    exact run_append hstart hrun
  · refine List.ext_getElem (by simp [bytesAt]) fun i hi _ => ?_
    have hiw : i < w.length := by simpa [bytesAt] using hi
    simp only [bytesAt, List.getElem_map, List.getElem_range]
    rw [ht.stored.bytes i hiw, List.getD_eq_getElem]

end Sys2Proof.Machine

/-!
SUPPORT. A WRITE past its start always ends (70_reset_and_hazards.md rule R240): every micro-step of it
returns, spends budget, sends bytes or comes nearer to the next poll.
-/

namespace Sys2Proof.Machine

open Sys2Proof.Config Sys2Proof.Safety

/-- What a WRITE may still wait and send. -/
def sendFuel (s : State) : Nat :=
  2 * (s.dp.txBudget + s.params.pollStep).toNat + 5 * (s.dp.txSize - s.dp.txOff)

/-- The way of a WRITE's state to its next poll. -/
def pollDistance : Fsm → Nat
  | .txWaitFree => 5
  | .txLoad => 4
  | .txTrigger => 3
  | .txPollErr => 2
  | .txPollFree => 1
  | .txStart | .txFinal | .idle | .fault | .rxStart | .rxClear | .rxPassTop | .rxBus | .rxTest
  | .rxFilter | .rxCopy | .rxRelease | .rxEcho | .rxAdvance | .rxPassEnd | .rxFinal => 0

section
variable {s t : State}

theorem writeFuel_eq (s : State) : writeFuel s = sendFuel s + pollDistance s.fsm := by
  unfold writeFuel
  cases s.fsm <;> rfl

theorem sendFuel_txWait (hp : 1 ≤ s.params.pollStep) (hb : 0 ≤ s.dp.txBudget) :
    sendFuel (txWait s) + 2 ≤ sendFuel s := by
  rw [txWait_eq]
  simp only [sendFuel, spend]
  omega

theorem writeRuns_txReturn (s : State) (r : Result) (n : Nat) : writeRuns (txReturn s r n) = false := by
  cases h : s.dp.txRet
  · rw [txReturn_host s r n h]
    rfl
  · rw [txReturn_rx s r n h]
    rfl

/-- A WRITE that moves on without waiting or sending comes nearer to its next poll. -/
theorem writeFuel_lt_of_nearer (hsend : sendFuel t = sendFuel s)
    (hnear : pollDistance t.fsm < pollDistance s.fsm) : writeFuel t < writeFuel s := by
  rw [writeFuel_eq, writeFuel_eq, hsend]
  omega

/-- A WRITE that sends or waits may take up to one step back from its next poll. -/
theorem writeFuel_lt_of_spent (hsend : sendFuel t + 2 ≤ sendFuel s)
    (hnear : pollDistance t.fsm ≤ pollDistance s.fsm + 1) : writeFuel t < writeFuel s := by
  rw [writeFuel_eq, writeFuel_eq]
  omega

theorem txWaitFree_ends_or_lowers (hp : 1 ≤ s.params.pollStep) (hf : s.fsm = .txWaitFree)
    (h : txWaitFree s = .next t) : writeRuns t = false ∨ writeFuel t < writeFuel s := by
  obtain ⟨_, rfl⟩ | ⟨_, _, rfl⟩ | ⟨hb, _, rfl⟩ := txWaitFree_cases h
  · exact .inl (writeRuns_txReturn _ _ _)
  · exact .inr (writeFuel_lt_of_nearer rfl (by simp [hf, pollDistance]))
  · refine .inr (writeFuel_lt_of_spent (sendFuel_txWait (s := logCall s .txFull) hp hb) ?_)
    rw [txWait_eq]
    exact Nat.le_succ _

theorem txLoad_lowers (hf : s.fsm = .txLoad) (h : txLoad s = .next t) :
    writeFuel t < writeFuel s := by
  obtain ⟨_, rfl⟩ := txLoad_cases h
  exact writeFuel_lt_of_nearer rfl (by simp [hf, pollDistance])

theorem txPollErr_ends_or_lowers (hf : s.fsm = .txPollErr) (h : txPollErr s = .next t) :
    writeRuns t = false ∨ writeFuel t < writeFuel s := by
  obtain ⟨_, rfl⟩ | ⟨_, _, rfl⟩ | ⟨_, _, rfl⟩ := txPollErr_cases h
  · exact .inl (writeRuns_txReturn _ _ _)
  · exact .inl (writeRuns_txReturn _ _ _)
  · exact .inr (writeFuel_lt_of_nearer rfl (by simp [hf, pollDistance]))

/-- A chunk that left the slot took at least one byte of the buffer with it. -/
theorem txPollFree_lowers (hp : 1 ≤ s.params.pollStep) (hf : s.fsm = .txPollFree)
    (hsize : s.dp.txSize < 2 ^ s.params.sizeW) (hready : chunkReady s) (hb : 0 ≤ s.dp.txBudget)
    (h : txPollFree s = .next t) : writeFuel t < writeFuel s := by
  obtain ⟨_, hoff, hlen⟩ := hready
  have hpos := chunkLength_pos hoff
  have hle : chunkLength s.dp.txSize s.dp.txOff ≤ s.dp.txSize - s.dp.txOff := Nat.min_le_right _ _
  have hcut : cut s.params.sizeW (s.dp.txOff + s.dp.chunkLen.toNat) =
      s.dp.txOff + s.dp.chunkLen.toNat := cut_of_lt (by omega)
  obtain ⟨_, rfl⟩ | ⟨_, rfl⟩ := txPollFree_cases h
  · rw [hcut, writeFuel_eq, writeFuel_eq]
    have hnear : pollDistance (if s.dp.txOff + s.dp.chunkLen.toNat = s.dp.txSize then Fsm.txFinal
        else .txLoad) ≤ 4 := by
      split <;> decide
    simp only [goto_fsm, sendFuel, goto_dp, setDp_dp, goto_params, setDp_params, logCall_params]
    omega
  · refine writeFuel_lt_of_spent (sendFuel_txWait (s := logCall s .txFull) hp hb) ?_
    simp [hf, pollDistance]

theorem txFinal_ends (h : txFinal s = .next t) : writeRuns t = false := by
  obtain ⟨_, rfl⟩ | ⟨_, rfl⟩ := txFinal_cases h
  · exact writeRuns_txReturn _ _ _
  · exact writeRuns_txReturn _ _ _

/-- Every micro-step of a WRITE past its start ends it or lowers its bound. -/
theorem microStep_ends_or_lowers (hs : Consistent s) (hw : writeRuns s = true)
    (hf : s.fsm ≠ .txStart) (h : microStep s = .next t) :
    writeRuns t = false ∨ writeFuel t < writeFuel s := by
  have sound := sound_of_consistent hs
  have hp := one_le_pollStep sound.fits
  have hphase := phase_of_consistent hs
  have hstate : s.fsm = .txWaitFree ∨ s.fsm = .txLoad ∨ s.fsm = .txTrigger ∨ s.fsm = .txPollErr ∨
      s.fsm = .txPollFree ∨ s.fsm = .txFinal := by
    cases he : s.fsm <;> simp [writeRuns, he] at hw hf ⊢
  obtain hf | hf | hf | hf | hf | hf := hstate
  case inl =>
    rw [microStep_of_txWaitFree hf] at h
    exact txWaitFree_ends_or_lowers hp hf h
  case inr.inl =>
    rw [microStep_of_txLoad hf] at h
    exact .inr (txLoad_lowers hf h)
  case inr.inr.inl =>
    rw [microStep_of_txTrigger hf, txTrigger] at h
    injection h with h
    subst h
    exact .inr (writeFuel_lt_of_nearer rfl (by simp [hf, pollDistance]))
  case inr.inr.inr.inl =>
    rw [microStep_of_txPollErr hf] at h
    exact txPollErr_ends_or_lowers hf h
  case inr.inr.inr.inr.inl =>
    rw [microStep_of_txPollFree hf] at h
    obtain ⟨hready, hb⟩ := (phaseOk_txPollFree hf).1 hphase
    exact .inr (txPollFree_lowers hp hf sound.dp.txSize hready hb h)
  case inr.inr.inr.inr.inr =>
    rw [microStep_of_txFinal hf] at h
    exact .inl (txFinal_ends h)

end

/-! ## A READ that runs for ever -/

/-- The machine after reset in the midst of a READ of 8 bytes: its state, cursor and `produced`,
whether slot 0 holds the empty frame, how many turns of the block are left of the round, and the calls
made so far. -/
def endlessRead (f : Fsm) (c produced : Nat) (full : Bool) (left : Nat) (calls : List Call) : State :=
  { State.reset with
    busy := true
    lastOp := some .read
    fsm := f
    bufSize := 8
    cursor := c
    dp := { Datapath.blank with produced := produced }
    periph := { Peripheral.quiet defaultParams with
      slots := { RxSlot.blank with full := full } :: List.replicate 3 RxSlot.blank }
    agenda := List.replicate left .block
    refrain := endlessRefrain
    calls := calls }

/-- One round of the endless READ, state by state. -/
inductive EndlessRead : State → Prop
  | passBegun (calls : List Call) : EndlessRead (endlessRead .rxBus 0 0 false 0 calls)
  | arrived (calls : List Call) : EndlessRead (endlessRead .rxBus 0 0 true 15 calls)
  | testing (calls : List Call) : EndlessRead (endlessRead .rxTest 0 0 true 14 calls)
  | filtering (calls : List Call) : EndlessRead (endlessRead .rxFilter 0 0 true 13 calls)
  | copying (calls : List Call) : EndlessRead (endlessRead .rxCopy 0 1 true 12 calls)
  | releasing (calls : List Call) : EndlessRead (endlessRead .rxRelease 0 1 true 11 calls)
  | advancing (calls : List Call) : EndlessRead (endlessRead .rxAdvance 0 1 false 10 calls)
  | passing (c : Nat) (h : c ∈ [1, 2, 3, 4]) (calls : List Call) :
      EndlessRead (endlessRead .rxBus c 1 false (11 - 2 * c) calls)
  | examining (c : Nat) (h : c ∈ [1, 2, 3]) (calls : List Call) :
      EndlessRead (endlessRead .rxTest c 1 false (10 - 2 * c) calls)
  | passEnding (calls : List Call) : EndlessRead (endlessRead .rxPassEnd 4 1 false 2 calls)
  | passOver (calls : List Call) : EndlessRead (endlessRead .rxPassTop 4 1 false 1 calls)

section
variable {f : Fsm} {c produced left : Nat} {full : Bool}

theorem step_endlessRead (calls : List Call)
    (hrun : running (endlessRead f c produced full left calls) = some .read) :
    step (endlessRead f c produced full (left + 1) calls) =
      microStep (endlessRead f c produced full left calls) :=
  step_of_block (s := endlessRead f c produced full (left + 1) calls)
    (rest := List.replicate left .block) rfl hrun rfl

/-- An empty slot is passed. -/
theorem examine_endlessRead (hc : c ∈ [1, 2, 3]) (calls : List Call) :
    step (endlessRead .rxTest c 1 false (left + 1) calls) =
      .next (endlessRead .rxBus (c + 1) 1 false left (.rxFull c :: calls)) := by
  have hslot : slotAt (endlessRead .rxTest c 1 false left calls) c = some RxSlot.blank := by
    fin_cases hc <;> rfl
  have hle : c + 1 ≤ 4 := by
    fin_cases hc <;> decide
  have hstep := rxTest_of_empty (s := endlessRead .rxTest c 1 false left calls) hslot rfl
  rw [setCursor_of_le (by exact hle)] at hstep
  exact (step_endlessRead calls rfl).trans hstep

/-- The empty frame is accepted. -/
theorem filter_endlessRead (calls : List Call) :
    step (endlessRead .rxFilter 0 0 true (left + 1) calls) =
      .next (endlessRead .rxCopy 0 1 true left (.rxLen 0 :: .rxId 0 :: calls)) := by
  have hstep := rxFilter_of_taken (s := endlessRead .rxFilter 0 0 true left calls)
    (slot := { RxSlot.blank with full := true }) rfl
    ((accept_iff_fields _ _).2 (.inl (by exact (by decide : (0 : BitVec 3).getLsbD 0 = false))))
    (by decide) (by exact (by decide : 0 + 0 ≤ 8))
  rw [acceptedFrame_of_lt (by exact (by decide : 0 < 4)) (by exact le_rfl)] at hstep
  exact (step_endlessRead calls rfl).trans hstep

/-- Its slot is released, and there is no echo. -/
theorem release_endlessRead (calls : List Call) :
    step (endlessRead .rxRelease 0 1 true (left + 1) calls) =
      .next (endlessRead .rxAdvance 0 1 false left (.rxRelease 0 :: calls)) := by
  have hecho : echoEn (endlessRead .rxRelease 0 1 true left calls) = false :=
    (by decide : (0 : BitVec 3).getLsbD 2 = false)
  have hstep := rxReleaseStep_of_slot (s := endlessRead .rxRelease 0 1 true left calls)
    (slot := { RxSlot.blank with full := true }) rfl
  rw [hecho] at hstep
  exact (step_endlessRead calls rfl).trans hstep

/-- No byte came, so the READ goes on. -/
theorem advance_endlessRead (calls : List Call) :
    step (endlessRead .rxAdvance 0 1 false (left + 1) calls) =
      .next (endlessRead .rxBus 1 1 false left calls) := by
  have hstep := rxAdvance_of_incomplete (s := endlessRead .rxAdvance 0 1 false left calls)
    (by exact (by decide : 0 + 0 < 2 ^ 17)) rfl
  rw [setCursor_of_le (by exact (by decide : 0 + 1 ≤ 4))] at hstep
  exact (step_endlessRead calls rfl).trans hstep

/-- The budget is never spent, so the cursor wraps. -/
theorem begin_endlessRead (calls : List Call) :
    step (endlessRead .rxPassTop 4 1 false (left + 1) calls) =
      .next (endlessRead .rxBus 0 0 false left calls) := by
  have hstep := rxPassTop_of_wrap (s := endlessRead .rxPassTop 4 1 false left calls) (by exact le_rfl)
    (by exact le_rfl)
  rw [setCursor_of_le (Nat.zero_le _)] at hstep
  exact (step_endlessRead calls rfl).trans hstep

end

/-- The READ goes round: every state of the round steps to one of the round. -/
theorem EndlessRead.next {s : State} (h : EndlessRead s) : ∃ t, step s = .next t ∧ EndlessRead t := by
  cases h with
  | passBegun calls => exact ⟨_, rfl, .arrived calls⟩
  | arrived calls => exact ⟨_, rfl, .testing (.busState :: calls)⟩
  | testing calls => exact ⟨_, rfl, .filtering (.rxFull 0 :: calls)⟩
  | filtering calls => exact ⟨_, filter_endlessRead calls, .copying _⟩
  | copying calls => exact ⟨_, rfl, .releasing calls⟩
  | releasing calls => exact ⟨_, release_endlessRead calls, .advancing _⟩
  | advancing calls => exact ⟨_, advance_endlessRead calls, .passing 1 (by decide) calls⟩
  | passing c hc calls =>
    fin_cases hc
    · exact ⟨_, rfl, .examining 1 (by decide) (.busState :: calls)⟩
    · exact ⟨_, rfl, .examining 2 (by decide) (.busState :: calls)⟩
    · exact ⟨_, rfl, .examining 3 (by decide) (.busState :: calls)⟩
    · exact ⟨_, rfl, .passEnding calls⟩
  | examining c hc calls =>
    fin_cases hc
    · exact ⟨_, examine_endlessRead (by decide) calls, .passing 2 (by decide) _⟩
    · exact ⟨_, examine_endlessRead (by decide) calls, .passing 3 (by decide) _⟩
    · exact ⟨_, examine_endlessRead (by decide) calls, .passing 4 (by decide) _⟩
  | passEnding calls => exact ⟨_, rfl, .passOver calls⟩
  | passOver calls => exact ⟨_, begin_endlessRead calls, .passBegun calls⟩

theorem EndlessRead.running {s : State} (h : EndlessRead s) : running s = some .read := by
  cases h <;> rfl

theorem EndlessRead.runs {s : State} (h : EndlessRead s) (k : Nat) :
    ∃ t, run k s = .next t ∧ EndlessRead t := by
  induction k generalizing s with
  | zero => exact ⟨s, rfl, h⟩
  | succ k ih =>
    obtain ⟨t, hstep, ht⟩ := h.next
    obtain ⟨u, hrun, hu⟩ := ih ht
    exact ⟨u, run_cons hstep hrun, hu⟩

/-- The prelude brings the machine after reset to the first pass. -/
theorem run_endlessPrelude :
    run endlessPrelude.length
      { State.reset with agenda := endlessPrelude, refrain := endlessRefrain } =
      .next (endlessRead .rxBus 0 0 false 0 []) := by
  rfl

/-- Settles O60: `writeFuel` falls with every micro-step of a WRITE, and the READ that an empty frame
meets in every pass goes round for ever. -/
theorem writeAlwaysEndsAndAReadNeedNot : Obligations.WriteAlwaysEndsAndAReadNeedNot := by
  refine ⟨fun s t i hs hrun hw hf h => ?_, fun k => ?_⟩
  · rw [exec_of_running hrun] at h
    exact microStep_ends_or_lowers hs hw hf h
  · obtain ⟨t, hrun, ht⟩ := (EndlessRead.passBegun []).runs k
    exact ⟨t, run_append run_endlessPrelude hrun, ht.running⟩

end Sys2Proof.Machine
